-- ==== Sys2Proof/Word.lean ====
section
/-!
DEFINITION. The word types of the P960 and their plainest arithmetic (spec/01_code_and_encoding.md,
spec/08_scalar_instructions.md R197).
-/
namespace Sys2Proof

/-- A 64-bit register value, address or record word. -/
abbrev Word := BitVec 64

/-- One byte. -/
abbrev Byte := BitVec 8

/-- One 32-bit instruction word (R8). -/
abbrev Code := BitVec 32

/-- A 512-bit vector register (R1, R220). -/
abbrev Vec := BitVec 512

/-- Bits [lo+n-1:lo] of a natural number. -/
def natBits (x lo n : Nat) : Nat := (x >>> lo) % 2 ^ n

end Sys2Proof
end

