-- ==== Sys2Proof/Syntax.lean ====
section
/-!
DEFINITION. The instructions of the P960 and its steps without encoding: one constructor of `Instr` per row of
spec/opcode_table.json. Operand layouts: spec/01_code_and_encoding.md R19 to R26.
-/
namespace Sys2Proof

/-- Scalar register number (R22: 0 to 31). -/
abbrev SReg := Fin 32
/-- Vector register number (0 to 15). -/
abbrev VReg := Fin 16
/-- Lane-mask number (0 to 3). -/
abbrev MReg := Fin 4
/-- Quad number (0 to 3, R25). -/
abbrev QReg := Fin 4

/-- An RI or BR immediate: the 11-bit field and, when the bundle gives the owner one, its extension word's
30 bits (R20, R21). -/
structure Imm11 where
  lo  : BitVec 11
  ext : Option (BitVec 30)
  deriving DecidableEq, Repr

/-- An LI immediate (R20, R21). -/
structure Imm16 where
  lo  : BitVec 16
  ext : Option (BitVec 30)
  deriving DecidableEq, Repr

/-- A format-M offset: off6, scaled without an extension, unscaled with one (R22). -/
structure Off6 where
  lo  : BitVec 6
  ext : Option (BitVec 30)
  deriving DecidableEq, Repr

/-- Address mode am (R22, R63). -/
inductive AddrMode where
  | global | slabLocal | striped | own
  deriving DecidableEq, Repr

/-- Scopes, narrowest first (R22, R292). -/
inductive Scope where
  | core | cluster | die | module | pod
  deriving DecidableEq, Repr

/-- Lane types of format V (R24, R220). -/
inductive LaneType where
  | i8 | i16 | i32 | f16 | bf16 | f32 | i64
  deriving DecidableEq, Repr

/-- Rounding modes (R47). -/
inductive Rnd where
  | rne | rtz | rdn | rup
  deriving DecidableEq, Repr

/-- Operands of an object instruction (R23): registers, scope override and flags. -/
structure OArgs where
  d   : SReg
  a   : SReg
  b   : SReg
  ovr : Option Scope
  cmb : Bool
  ret : Bool
  nw  : Bool
  deriving DecidableEq, Repr

/-- Operands of an untyped atomic (R23, R124); w32 is the width field. -/
structure AArgs where
  d   : SReg
  a   : SReg
  b   : SReg
  w32 : Bool
  deriving DecidableEq, Repr

/-- Operands of a scalar load or store (R22): d, base, address mode, relaxed bit, offset. -/
structure MArgs where
  d    : SReg
  base : SReg
  am   : AddrMode
  x    : Bool
  off  : Off6
  deriving DecidableEq, Repr

/-- Operands of LDA and STL (R22): a scope stands in place of the relaxed bit. -/
structure ScArgs where
  d    : SReg
  base : SReg
  am   : AddrMode
  sc   : Scope
  off  : Off6
  deriving DecidableEq, Repr

/-- Operands of VLD and VST (R259). -/
structure VMArgs where
  v    : VReg
  base : SReg
  am   : AddrMode
  x    : Bool
  off  : Off6
  deriving DecidableEq, Repr

/-- Operands of GLD and GST (R391, R392). -/
structure GMArgs where
  q    : QReg
  base : SReg
  am   : AddrMode
  x    : Bool
  off  : Off6
  deriving DecidableEq, Repr

/-- Operands of VLDS and VSTS (R260). -/
structure StrideArgs where
  v  : VReg
  a  : SReg
  b  : SReg
  am : AddrMode
  x  : Bool
  ty : LaneType
  deriving DecidableEq, Repr

/-- What L1INV invalidates (R264): the whole caches (`zext`: it carries a zero extension word) or one line. -/
inductive L1Form where
  | whole (zext : Bool)
  | line (base : SReg) (off : Off6)
  deriving DecidableEq, Repr

/-- Operands of a bank command (R285). -/
structure BArgs where
  d    : SReg
  a    : SReg
  b    : SReg
  am   : AddrMode
  x    : Bool
  bf16 : Bool
  sub  : BitVec 2
  deriving DecidableEq, Repr

/-- Field a of format E (R19): s8, s16 or s24. -/
inductive EReg where
  | s8 | s16 | s24
  deriving DecidableEq, Repr

/-- Operands of a vector instruction in the plain layout of format V (R24). -/
structure VArgs where
  vd : VReg
  va : VReg
  vb : VReg
  ty : LaneType
  m  : MReg
  fn : BitVec 4
  deriving DecidableEq, Repr

/-- Operands of VBCAST, VREDADD and VREDMAX (R24, scalar layout). -/
structure VSArgs where
  v  : VReg
  s  : SReg
  ty : LaneType
  m  : MReg
  fn : BitVec 4
  deriving DecidableEq, Repr

/-- Operands of VINS and VEXT (R24, scalar layout with a lane index). -/
structure VLArgs where
  v    : VReg
  s    : SReg
  ty   : LaneType
  lane : BitVec 6
  deriving DecidableEq, Repr

/-- Operands of VCMP: the destination is a mask (R224). -/
structure VCArgs where
  md : MReg
  va : VReg
  vb : VReg
  ty : LaneType
  m  : MReg
  fn : BitVec 4
  deriving DecidableEq, Repr

/-- Operands of MOP: three masks (R228). -/
structure MopArgs where
  md : MReg
  ma : MReg
  mb : MReg
  ty : LaneType
  fn : BitVec 4
  deriving DecidableEq, Repr

/-- A Plosil Link flit as its port reads it: the header fields, the payload, the sequence number and whether the CRC holds (R355). -/
structure Flit where
  ack    : Option Nat
  cls    : Nat
  sop    : Bool
  eop    : Bool
  len    : Nat
  credit : Nat
  cclass : Nat
  seq    : Nat
  crcOk  : Bool
  data   : List (BitVec 8)
  deriving DecidableEq, Repr

/-- An object request of the host window, words h0 to h7 (R132). -/
structure WindowReq where
  h0 : Word
  h1 : Word
  h2 : Word
  h3 : Word
  h4 : Word
  h5 : Word
  h6 : Word
  h7 : Word
  deriving DecidableEq, Repr

/-- What an array check found (R409). -/
inductive ArrayKind where
  | register | control | accumulator | localBank | l1 | queue | shadow | l2data | l2tag | object | rdc | hbm | flit | adder
  | bridge | objproc | bankUnit
  deriving DecidableEq, Repr

/-- Resource classes of the Assay (R421). -/
inductive ResClass where
  | core | channel | port
  deriving DecidableEq, Repr

/-- What the test of a lease found (R422, R433): passed, or failed with the first failing pattern and address. -/
inductive TestOutcome where
  | passed
  | failed (pattern : BitVec 32) (addr : Word) (uncorrectable : Bool)
  deriving DecidableEq, Repr

/-- Who writes a control-window register (R445, R447). -/
inductive Writer where
  | pf | supervisor (vf : Nat)
  deriving DecidableEq, Repr

/-- One constructor per row of spec/opcode_table.json. The first 176 are the encoded instructions (R27, R28), their
operands in the order of their formats; the rest are the steps without encoding. What a step without encoding concerns
(the agent that takes it, the item it takes, the value or data it brings) stands with it on the agenda of the state. -/
inductive Instr where
  -- C side: control (R27)
  | nopc
  | beq (a b : SReg) (off : Imm11)
  | bne (a b : SReg) (off : Imm11)
  | blt (a b : SReg) (off : Imm11)
  | bge (a b : SReg) (off : Imm11)
  | bltu (a b : SReg) (off : Imm11)
  | bgeu (a b : SReg) (off : Imm11)
  | loop (a b : SReg) (off : Imm11)
  | jmp (off : BitVec 21)
  | call (off : BitVec 21)
  | jr (a : SReg) (imm : Imm11)
  | callr (a : SReg) (imm : Imm11)
  -- C side: memory
  | ldb (o : MArgs)
  | ldbu (o : MArgs)
  | ldh (o : MArgs)
  | ldhu (o : MArgs)
  | ldw (o : MArgs)
  | ldwu (o : MArgs)
  | ldd (o : MArgs)
  | lda (o : ScArgs)
  | stb (o : MArgs)
  | sth (o : MArgs)
  | stw (o : MArgs)
  | std (o : MArgs)
  | stl (o : ScArgs)
  | fence (sc : Scope) (zext : Bool)
  | l1inv (dat ins : Bool) (form : L1Form)
  | vld (o : VMArgs)
  | vst (o : VMArgs)
  | vlds (o : StrideArgs)
  | vsts (o : StrideArgs)
  | gld (o : GMArgs)
  | gst (o : GMArgs)
  -- C side: objects and untyped atomics
  | oinit (o : OArgs)
  | ofree (o : OArgs)
  | oread (o : OArgs)
  | cadd (o : OArgs)
  | cwait (o : OArgs)
  | cset (o : OArgs)
  | barr (o : OArgs)
  | bwait (o : OArgs)
  | barw (o : OArgs)
  | ltake (o : OArgs)
  | lgive (o : OArgs)
  | qput (o : OArgs)
  | qget (o : OArgs)
  | kwait (o : OArgs)
  | ksig (o : OArgs)
  | kall (o : OArgs)
  | feget (o : OArgs)
  | feput (o : OArgs)
  | fepeek (o : OArgs)
  | aadd (o : AArgs)
  | aswap (o : AArgs)
  | acas (o : AArgs)
  | amax (o : AArgs)
  | amin (o : AArgs)
  | aand (o : AArgs)
  | aor (o : AArgs)
  | axor (o : AArgs)
  -- C side: bank commands and engines
  | bkadd (o : BArgs)
  | bkmax (o : BArgs)
  | bkscl (o : BArgs)
  | bkfma (o : BArgs)
  | bksmx (o : BArgs)
  | bkcvt (o : BArgs)
  | bkfill (o : BArgs)
  | bkred (o : BArgs)
  | mxc (d : SReg) (a : EReg)
  | cpc (d : SReg) (a : EReg)
  | estat (d : SReg) (cp clr : Bool)
  -- C side: contexts, messages, system
  | spawn (d a b : SReg)
  | fork (d a b : SReg)
  | quit
  | yield
  | send (d a b : SReg) (ovr : Option Scope) (nw : Bool)
  | recv (d a : SReg) (tag nw : Bool)
  | arrMatch (d a b : SReg) (wake : Bool)
  | waitt (d a b : SReg)
  | mfc (d : SReg) (num : BitVec 12)
  | mtc (num : BitVec 12) (a : SReg)
  | trap (imm : Imm16)
  | rft (skip : Bool)
  | kill (d a : SReg) (dom nw : Bool)
  | halt
  | plbw (d a b : SReg)
  -- A side: scalar integer
  | nopa
  | add (w32 : Bool) (d a b : SReg)
  | sub (w32 : Bool) (d a b : SReg)
  | and (d a b : SReg)
  | or (d a b : SReg)
  | xor (d a b : SReg)
  | andn (d a b : SReg)
  | shl (d a b : SReg)
  | shr (d a b : SReg)
  | sra (d a b : SReg)
  | mul (w32 : Bool) (d a b : SReg)
  | mulh (d a b : SReg)
  | mulhu (d a b : SReg)
  | div (w32 : Bool) (d a b : SReg)
  | divu (w32 : Bool) (d a b : SReg)
  | rem (w32 : Bool) (d a b : SReg)
  | remu (w32 : Bool) (d a b : SReg)
  | min (d a b : SReg)
  | max (d a b : SReg)
  | minu (d a b : SReg)
  | maxu (d a b : SReg)
  | cmpeq (d a b : SReg)
  | cmpne (d a b : SReg)
  | cmplt (d a b : SReg)
  | cmpltu (d a b : SReg)
  | cmple (d a b : SReg)
  | cmpleu (d a b : SReg)
  | sel (d a b c : SReg)
  | clz (d a : SReg)
  | ctz (d a : SReg)
  | popc (d a : SReg)
  | bfx (d a b : SReg) (sg : Bool)
  | bfi (d a b : SReg)
  | addi (d a : SReg) (imm : Imm11)
  | andi (d a : SReg) (imm : Imm11)
  | ori (d a : SReg) (imm : Imm11)
  | xori (d a : SReg) (imm : Imm11)
  | shli (d a : SReg) (imm : Imm11)
  | shri (d a : SReg) (imm : Imm11)
  | srai (d a : SReg) (imm : Imm11)
  | cmpeqi (d a : SReg) (imm : Imm11)
  | cmplti (d a : SReg) (imm : Imm11)
  | li (d : SReg) (imm : Imm16)
  | lui (d : SReg) (imm : Imm16)
  -- A side: scalar floating point
  | fadd (d a b : SReg)
  | fsub (d a b : SReg)
  | fmul (d a b : SReg)
  | ffma (d a b c : SReg)
  | fmin (d a b : SReg)
  | fmax (d a b : SReg)
  | fdiv (d a b : SReg)
  | fsqrt (d a : SReg)
  | fcmp (d a b : SReg) (p : BitVec 3)
  | fcvt (d a : SReg) (k : BitVec 3) (rm : Rnd) (sat : Bool)
  | fclass (d a : SReg)
  -- A side: vector
  | vadd (o : VArgs)
  | vsub (o : VArgs)
  | vmul (o : VArgs)
  | vfma (o : VArgs)
  | vmin (o : VArgs)
  | vmax (o : VArgs)
  | vabs (o : VArgs)
  | vand (o : VArgs)
  | vor (o : VArgs)
  | vxor (o : VArgs)
  | vshl (o : VArgs)
  | vshr (o : VArgs)
  | vcmp (o : VCArgs)
  | vsel (o : VArgs)
  | vbcast (o : VSArgs)
  | vins (o : VLArgs)
  | vext (o : VLArgs)
  | vredadd (o : VSArgs)
  | vredmax (o : VSArgs)
  | vperm (o : VArgs)
  | vcvt (o : VArgs)
  | vexp2 (o : VArgs)
  | vrcp (o : VArgs)
  | vdot4 (o : VArgs)
  | vaddsub (o : VArgs)
  | mop (o : MopArgs)
  | unpk3 (o : VArgs)
  | unpk4 (o : VArgs)
  | unpki3 (o : VArgs)
  -- A side: Gaussian blocks
  | gadd (gd ga gb : QReg) (sub : Bool)
  | gext (gd ga gb : QReg)
  | gelim (gd ga : QReg) (keep : BitVec 7)
  | gdamp (gd ga gb : QReg)
  | gres (s : SReg) (ga gb : QReg)
  | gmean (gd ga : QReg)
  -- Steps without encoding: trap, fetch, results
  | escalationLogged
  | asyncCauseTaken
  | fetch
  | icacheFill
  | parkResume
  | resultReturn
  | loadDataReturn
  | storeAck
  | accessAccepted
  | probeEcho
  -- memory system
  | bankGrant
  | sliceDataServe
  | l1Fill
  | l2Fill
  | hbmChannelServe
  | walkComplete
  | tlbinvWrite
  | tlbinvDone
  | rdclenWrite
  | rdcRemovalDone
  | domgenWrite
  | domgenDone
  | snapctlGo
  | snapshotDone
  | timesetWrite
  | registerWrite
  -- partitions and host
  | swapctlHalt
  | haltDrained
  | swapctlGo
  | swapExchangeDone
  | purge
  | errcntClear
  | partitionEnable
  | partitionDisable
  | enableClearEffect
  | nouvWrite
  | resumeGo
  | objectWindowRequest
  | bar4Write
  | bar4Read
  | bar2Read
  | bar2Write
  | hostWindowCompletion
  | attestationRequest
  | secureBoot
  | clockStep
  -- dispatcher and placement
  | dispatcherTake
  | packetVerify
  | depctrGrant
  | depctrRetry
  | notbeforeReached
  | placeContext
  | packetComplete
  | slotFill
  | imageFetch
  | displacement
  | quantumPreempt
  | readyPromotion
  | stealProbe
  | stealProbeResult
  | stealBackoffEnd
  -- objects, waits and messages
  | wake
  | waittDeadline
  | objectRequestArrival
  | parentWake
  | objectReply
  | spillRefill
  | switchCombine
  | combinedReplySplit
  | switchOutputGrant
  | watchdogExpiry
  | messageArrival
  | messageRetry
  | sendAnswer
  | spawnAnswer
  | arrivalCount
  | quitComplete
  -- engines
  | cpLaneStart
  | cpUnit
  | cpWritesAcked
  | cpActionReply
  | mxCommandStart
  | mxGroup
  | mxWritesAcked
  | mxCtrReply
  | gmmaAdmit
  | gmmaPartDone
  | accstDigestCompare
  -- twins, repair, errors
  | twinCompare
  | twinRestoreDone
  | checkpointCompare
  | registerRepair
  | replayDone
  | arrayError
  | voltageLower
  -- links
  | linkFlitReceive
  | nakReceive
  | nakRepeat
  | ackTimer
  | laneFailure
  | retrainDone
  | timeFlitSend
  | timeFlitReceive
  -- leases and module
  | leaseStart
  | handoverDone
  | graceDeadline
  | moveDone
  | testEnd
  | lineMove
  | portDrained
  | scoreTick
  | hbeatTick
  | killComplete
  | illegalOp
  | spawnCreation
  | inboxRefill
  | syncLoss
  deriving DecidableEq, Repr

/-- What one turn issues (R11): a lone word, or a pair head and tail, with the switch marker W (R10). The extension words
stand in the operands that claim them (R13). -/
structure Bundle where
  marker : Bool
  op     : Instr
  tail   : Option Instr
  deriving DecidableEq, Repr

end Sys2Proof
end

