-- ==== Sys2Proof/Machine/Flags.lean ====
section
/-!
DEFINITION. Numbers: the floating-point formats, exact values, rounding, conversions, ordering and the integer edge results
(spec/02_number_formats.md R41 to R58). The device keeps no floating-point flags (R46) and no integer flags; a comparison's
outcome is the value it writes.
-/
namespace Sys2Proof.Machine

/-- A floating-point format: exponent and fraction widths, bias, and whether all ones in the exponent means infinity and
NaN (not in E4M3) (R42). -/
structure Fmt where
  ebits : Nat
  fbits : Nat
  bias  : Nat
  ieee  : Bool
  deriving DecidableEq, Repr

/-- FP8 E4M3. -/
def e4m3 : Fmt := ⟨4, 3, 7, false⟩
/-- FP8 E5M2. -/
def e5m2 : Fmt := ⟨5, 2, 15, true⟩
/-- FP16. -/
def fp16 : Fmt := ⟨5, 10, 15, true⟩
/-- BF16. -/
def bf16 : Fmt := ⟨8, 7, 127, true⟩
/-- FP32. -/
def fp32 : Fmt := ⟨8, 23, 127, true⟩

/-- An exact value: NaN, an infinity, or (−1)^neg · m · 2^e. -/
inductive FpVal where
  | nan
  | inf (neg : Bool)
  | fin (neg : Bool) (m : Nat) (e : Int)
  deriving DecidableEq, Repr

/-- The width of a format in bits. -/
def Fmt.width (f : Fmt) : Nat := 1 + f.ebits + f.fbits

/-- The code of +infinity; of E4M3, the code above the largest finite one. -/
def Fmt.infCode (f : Fmt) : Nat := if f.ieee then (2 ^ f.ebits - 1) * 2 ^ f.fbits else 0x7F

/-- The canonical NaN (R44). -/
def Fmt.nan (f : Fmt) : Nat := if f.ieee then f.infCode + 2 ^ (f.fbits - 1) else 0x7F

/-- The sign bit of a code. -/
def Fmt.signBit (f : Fmt) : Nat := 2 ^ (f.ebits + f.fbits)

/-- The value of an encoding (R42). -/
def Fmt.decode (f : Fmt) (x : Nat) : FpVal :=
  let neg := decide (f.signBit ≤ x % 2 ^ f.width)
  let y := x % f.signBit
  let ex := y / 2 ^ f.fbits
  let fr := y % 2 ^ f.fbits
  if f.ieee && ex == 2 ^ f.ebits - 1 then (if fr = 0 then .inf neg else .nan)
  else if !f.ieee && y == 0x7F then .nan
  else if ex = 0 then .fin neg fr (1 - (f.bias : Int) - f.fbits)
  else .fin neg (2 ^ f.fbits + fr) ((ex : Int) - f.bias - f.fbits)

/-- A magnitude n + r/d (r < d) rounded to an integer by a mode (R47). -/
def roundUnit (rm : Rnd) (neg : Bool) (n r d : Nat) : Nat :=
  if r = 0 then n
  else
    match rm with
    | .rtz => n
    | .rdn => if neg then n + 1 else n
    | .rup => if neg then n else n + 1
    | .rne => if 2 * r < d then n else if 2 * r = d then n + n % 2 else n + 1

/-- The code of an overflowed result (R49). -/
def Fmt.overflow (f : Fmt) (rm : Rnd) (sat neg : Bool) : Nat :=
  let s := if neg then f.signBit else 0
  let inf := if f.ieee then s + f.infCode else f.nan
  let big := s + f.infCode - 1
  if sat then big
  else
    match rm with
    | .rne => inf
    | .rtz => big
    | .rdn => if neg then inf else big
    | .rup => if neg then big else inf

/-- A finite value rounded to a format (R47, R49). -/
def Fmt.roundFin (f : Fmt) (rm : Rnd) (sat neg : Bool) (m : Nat) (e : Int) : Nat :=
  let s := if neg then f.signBit else 0
  if m = 0 then s
  else
    let top : Int := (Nat.log2 m : Int) + e
    let emin : Int := 1 - (f.bias : Int)
    let q : Int := (if top < emin then emin else top) - f.fbits
    let n := if q ≤ e then m * 2 ^ (e - q).toNat
             else roundUnit rm neg (m / 2 ^ (q - e).toNat) (m % 2 ^ (q - e).toNat) (2 ^ (q - e).toNat)
    let ef := (q + f.fbits + f.bias - 1).toNat
    let code := ef * 2 ^ f.fbits + n
    if f.infCode ≤ code then f.overflow rm sat neg else s + code

/-- An exact value delivered in a format (R44, R49, R50). -/
def Fmt.encode (f : Fmt) (rm : Rnd) (sat : Bool) : FpVal → Nat
  | .nan => f.nan
  | .inf neg =>
    let s := if neg then f.signBit else 0
    if f.ieee then s + f.infCode else if sat then s + f.infCode - 1 else f.nan
  | .fin neg m e => f.roundFin rm sat neg m e

/-- round_fp32_rne (R6, R48). -/
def toF32 (v : FpVal) : Nat := fp32.encode .rne false v

/-- The value of an FP32 code. -/
def ofF32 (x : Nat) : FpVal := fp32.decode x

/-- A magnitude with its sign. -/
def signed (neg : Bool) (m : Nat) : Int := if neg then -(m : Int) else m

/-- An integer as an exact value. -/
def FpVal.ofInt (i : Int) : FpVal := .fin (decide (i < 0)) i.natAbs 0

/-- The sign of a value; NaN counts as positive. -/
def FpVal.neg : FpVal → Bool
  | .nan => false
  | .inf n => n
  | .fin n _ _ => n

/-- A value with the other sign. -/
def FpVal.negate : FpVal → FpVal
  | .nan => .nan
  | .inf n => .inf (!n)
  | .fin n m e => .fin (!n) m e

/-- A value of positive sign. -/
def FpVal.abs : FpVal → FpVal
  | .nan => .nan
  | .inf _ => .inf false
  | .fin _ m e => .fin false m e

/-- The exact sum; an exact zero is −0 only when both terms are −0 (R45). -/
def FpVal.add : FpVal → FpVal → FpVal
  | .nan, _ => .nan
  | _, .nan => .nan
  | .inf a, .inf b => if a = b then .inf a else .nan
  | .inf a, .fin _ _ _ => .inf a
  | .fin _ _ _, .inf b => .inf b
  | .fin a m e, .fin b n f =>
    let g := if e < f then e else f
    let i := signed a m * (2 : Int) ^ (e - g).toNat + signed b n * (2 : Int) ^ (f - g).toNat
    .fin (if i = 0 then (m == 0 && n == 0 && a && b) else decide (i < 0)) i.natAbs g

/-- The exact product (R45). -/
def FpVal.mul : FpVal → FpVal → FpVal
  | .nan, _ => .nan
  | _, .nan => .nan
  | .inf a, .inf b => .inf (a != b)
  | .inf a, .fin b m _ => if m = 0 then .nan else .inf (a != b)
  | .fin a m _, .inf b => if m = 0 then .nan else .inf (a != b)
  | .fin a m e, .fin b n f => .fin (a != b) (m * n) (e + f)

/-- The exact quotient to more bits than any format keeps, its last bit set when it is not exact (R57). -/
def FpVal.div : FpVal → FpVal → FpVal
  | .nan, _ => .nan
  | _, .nan => .nan
  | .inf _, .inf _ => .nan
  | .inf a, .fin b _ _ => .inf (a != b)
  | .fin a _ _, .inf b => .fin (a != b) 0 0
  | .fin a m e, .fin b n f =>
    if n = 0 then (if m = 0 then .nan else .inf (a != b))
    else
      let k := 64 + Nat.log2 n
      let q := m * 2 ^ k / n
      .fin (a != b) (2 * q + (if m * 2 ^ k % n = 0 then 0 else 1)) (e - f - k - 1)

/-- Newton's step towards the integer square root, at most n of them. -/
def isqrtFrom (a : Nat) : Nat → Nat → Nat
  | 0, x => x
  | n + 1, x =>
    let y := (x + a / x) / 2
    if x ≤ y then x else isqrtFrom a n y

/-- The integer square root, rounded down. -/
def isqrt (a : Nat) : Nat := if a = 0 then 0 else isqrtFrom a 64 (2 ^ (Nat.log2 a / 2 + 1))

/-- The exact square root to more bits than any format keeps, its last bit set when it is not exact (R57). -/
def FpVal.sqrt : FpVal → FpVal
  | .nan => .nan
  | .inf neg => if neg then .nan else .inf false
  | .fin neg m e =>
    if m = 0 then .fin neg 0 0
    else if neg then .nan
    else
      let odd := e % 2
      let a := m * 2 ^ (64 + odd.toNat)
      let r := isqrt a
      .fin false (2 * r + (if r * r = a then 0 else 1)) ((e - odd) / 2 - 32 - 1)

/-- Fraction bits of the exponential's fixed-point working (notes/assumptions/13.md). -/
def exp2Bits : Nat := 128

/-- The product of 2^(2^−k) over the set bits of a fraction, k rising: `c` is 2^(2^−k) in fixed point. -/
def exp2Frac : Nat → Nat → Nat → Nat → Nat
  | 0, _, _, p => p
  | n + 1, f, c, p =>
    let c := isqrt (c * 2 ^ exp2Bits)
    exp2Frac n f c (if f.testBit n then p * c / 2 ^ exp2Bits else p)

/-- 2^x, exact for integers, else to more bits than any format keeps with its last bit set (R57). Below 2^−26 in magnitude
every result rounds to 1. DEDUCED, notes/assumptions/13.md. -/
def FpVal.exp2 : FpVal → FpVal
  | .nan => .nan
  | .inf neg => if neg then .fin false 0 0 else .inf false
  | .fin neg m e =>
    if m = 0 then .fin false 1 0
    else
      let top : Int := (Nat.log2 m : Int) + e
      if 8 < top then (if neg then .fin false 0 0 else .inf false)
      else if top < -26 then .fin false 1 0
      else
        -- x in units of 2^−60
        let x : Int := signed neg (m * 2 ^ (e + 60).toNat)
        let n := x / 2 ^ 60
        let f := (x % 2 ^ 60).toNat
        if f = 0 then .fin false 1 n
        else .fin false (2 * exp2Frac 60 f (2 * 2 ^ exp2Bits) (2 ^ exp2Bits) + 1) (n - exp2Bits - 1)

/-- −1, 0 or 1 as the first of two numbers is below, equal to or above the second; the zeros are equal (R207). -/
def FpVal.cmp : FpVal → FpVal → Option Int
  | .nan, _ => none
  | _, .nan => none
  | .inf a, .inf b => some (if a = b then 0 else if a then -1 else 1)
  | .inf a, .fin _ _ _ => some (if a then -1 else 1)
  | .fin _ _ _, .inf b => some (if b then 1 else -1)
  | .fin a m e, .fin b n f =>
    let g := if e < f then e else f
    let i := signed a m * (2 : Int) ^ (e - g).toNat - signed b n * (2 : Int) ^ (f - g).toNat
    some (if i = 0 then 0 else if i < 0 then -1 else 1)

/-- The first of two numbers is ordered below the second, −0 below +0 (R206). -/
def FpVal.below (a b : FpVal) : Bool :=
  match a.cmp b with
  | none => false
  | some c => c == -1 || (c == 0 && a.neg && !b.neg)

/-- Minimum or maximum of two codes: a single NaN gives the other operand, two the canonical NaN (R206). -/
def Fmt.minmax (f : Fmt) (isMax : Bool) (x y : Nat) : Nat :=
  match f.decode x, f.decode y with
  | .nan, .nan => f.nan
  | .nan, _ => y
  | _, .nan => x
  | a, b => if isMax then (if a.below b then y else x) else (if b.below a then y else x)

/-- A predicate of FCMP and of the floating-point VCMP: eq, lt, le, un, ne (R207). -/
def fpPredicate (p : Nat) (a b : FpVal) : Bool :=
  match a.cmp b with
  | none => p == 3 || p == 4
  | some c =>
    match p with
    | 0 => c == 0
    | 1 => c == -1
    | 2 => c != 1
    | 4 => c != 0
    | _ => false

/-- FCLASS of an FP32 code (R209). -/
def fclass (x : Nat) : Nat :=
  let neg := 2 ^ 31 ≤ x % 2 ^ 32
  let y := x % 2 ^ 31
  if 0x7F800000 < y then (if x.testBit 22 then 2 ^ 8 else 2 ^ 9)
  else if y = 0x7F800000 then (if neg then 2 ^ 0 else 2 ^ 7)
  else if y = 0 then (if neg then 2 ^ 3 else 2 ^ 4)
  else if y < 2 ^ 23 then (if neg then 2 ^ 2 else 2 ^ 5)
  else if neg then 2 ^ 1 else 2 ^ 6

/-- An integer clamped to a range. -/
def clamp (lo hi i : Int) : Int := if i < lo then lo else if hi < i then hi else i

/-- Clamped to a signed width. -/
def clampS (w : Nat) (i : Int) : Int := clamp (-(2 ^ (w - 1) : Int)) (2 ^ (w - 1) - 1) i

/-- sat_int32 (R6). -/
def satInt32 (i : Int) : Int := clampS 32 i

/-- A value rounded to an integer of a signed width and clamped; NaN gives 0 (R50). -/
def FpVal.toInt (rm : Rnd) (w : Nat) : FpVal → Int
  | .nan => 0
  | .inf neg => clampS w (if neg then -(2 ^ w : Int) else 2 ^ w)
  | .fin neg m e =>
    clampS w (signed neg
      (if 0 ≤ e then m * 2 ^ (Nat.min e.toNat 400) else
        roundUnit rm neg (m / 2 ^ (-e).toNat) (m % 2 ^ (-e).toNat) (2 ^ (-e).toNat)))

/-- A two's-complement number of width w. -/
def sint (w x : Nat) : Int := if x % 2 ^ w < 2 ^ (w - 1) then (x % 2 ^ w : Int) else (x % 2 ^ w : Int) - 2 ^ w

/-- The low w bits of an integer. -/
def lowBits (w : Nat) (i : Int) : Nat := (i % (2 ^ w : Int)).toNat

/-- Storage formats by their codes (R41): floating point, or an integer of a width. -/
inductive Kind where
  | fp (f : Fmt)
  | int (w : Nat)
  | tern
  | none
  deriving DecidableEq, Repr

/-- The format of a code of R41; grouped formats convert as their unscaled counterparts (R50). -/
def kindOf : Nat → Kind
  | 1 => .fp e4m3
  | 2 => .fp e5m2
  | 3 => .fp fp16
  | 4 => .fp bf16
  | 5 => .fp fp32
  | 6 => .int 8
  | 7 => .int 16
  | 8 => .int 32
  | 9 => .int 4
  | 10 => .int 3
  | 11 => .int 4
  | 12 => .int 3
  | 13 => .tern
  | _ => .none

/-- Conversion of a value between two formats (R50): the code in the destination. -/
def convert (p q : Kind) (rm : Rnd) (sat : Bool) (x : Nat) : Nat :=
  match p, q with
  | .fp f, .fp g => g.encode rm sat (f.decode x)
  | .fp f, .int w => lowBits w ((f.decode x).toInt rm w)
  | .int v, .fp g => g.encode rm sat (.ofInt (sint v x))
  | .int v, .int w => if w < v && sat then lowBits w (clampS w (sint v x)) else lowBits w (sint v x)
  | _, _ => 0

/-- The five trits of a legal TERN5 byte, by the procedure of R54. -/
def tritsFrom : Nat → Nat → List Int
  | 0, _ => []
  | n + 1, f => (((3 * f / 256 : Nat) : Int) - 1) :: tritsFrom n (3 * f % 256)

/-- The trits of a byte 0 to 242 (R54). -/
def trits (v : Nat) : List Int := tritsFrom 5 ((v * 256 + 242) / 243)

/-! Integer edge results (R58). -/

/-- Signed quotient at width w: by zero all ones, −2^(w−1) by −1 itself. -/
def divS (w : Nat) (a b : Int) : Nat := if b = 0 then 2 ^ w - 1 else lowBits w (a.tdiv b)

/-- Signed remainder: by zero the dividend. -/
def remS (w : Nat) (a b : Int) : Nat := if b = 0 then lowBits w a else lowBits w (a.tmod b)

/-- Unsigned quotient: by zero all ones. -/
def divU (w : Nat) (a b : Nat) : Nat := if b = 0 then 2 ^ w - 1 else a / b

/-- Unsigned remainder: by zero the dividend. -/
def remU (a b : Nat) : Nat := if b = 0 then a else a % b

/-- Leading zeros of a 64-bit number. -/
def clz64 (x : Nat) : Nat := if x = 0 then 64 else 63 - Nat.log2 x

/-- Trailing zeros of a 64-bit number. -/
def ctz64 (x : Nat) : Nat := ((List.range 64).find? fun i => x.testBit i).getD 64

/-- Set bits of a 64-bit number. -/
def popc64 (x : Nat) : Nat := ((List.range 64).filter fun i => x.testBit i).length

/-- The field of BFX and BFI: position and length of s_b, the length cut at bit 64 (R202). -/
def fieldOf (b : Nat) : Nat × Nat :=
  let pos := b % 64
  let len := if b / 256 % 64 = 0 then 64 else b / 256 % 64
  (pos, if 64 < pos + len then 64 - pos else len)

end Sys2Proof.Machine
end

