-- ==== Sys2Proof/WellFormed.lean ====
section
/-!
DEFINITION. Which operand values an instruction accepts beyond the ranges of their types: the reserved fields and coded
values of the entries (R17). What fails here raises ILLEGAL_OP at decoding (R18 position 3).
-/
namespace Sys2Proof

/-- Every lane type but the floating-point ones. -/
def LaneType.isInt : LaneType → Bool
  | .i8 | .i16 | .i32 | .i64 => true
  | .f16 | .bf16 | .f32 => false

/-- Lane width in bits (R220). -/
def LaneType.width : LaneType → Nat
  | .i8 => 8
  | .i16 | .f16 | .bf16 => 16
  | .i32 | .f32 => 32
  | .i64 => 64

/-- Number of lanes (R220). -/
def LaneType.lanes (t : LaneType) : Nat := 512 / t.width

/-- Which object flags an instruction accepts (R113). -/
structure OFlags where
  nw     : Bool
  ret    : Bool
  cmb    : Bool
  always : Bool
  useB   : Bool
  deriving DecidableEq, Repr

/-- The format-O rules shared by the object instructions (R94, R113): only accepted flags are set; .nw needs an even d;
an instruction that writes nothing has d = 0; a field b without a meaning is 0. -/
def OArgs.ok (f : OFlags) (o : OArgs) : Bool :=
  (f.nw || !o.nw) && (f.ret || !o.ret) && (f.cmb || !o.cmb)
    && (if o.nw then o.d.val % 2 == 0 else (f.always || o.ret || o.d == 0))
    && (f.useB || o.b == 0)

/-- The fn values R225 lists: for a floating-point type none; for an integer type the given ones. -/
def fnOk (ints : List (BitVec 4)) (o : VArgs) : Bool :=
  if o.ty.isInt then ints.contains o.fn else o.fn == 0

/-- The immediate of SHLI, SHRI and SRAI lies in 0 to 63 (R203). -/
def Imm11.shiftOk (i : Imm11) : Bool :=
  match i.ext with
  | none => i.lo.toNat < 64
  | some e => e == 0 && i.lo.toNat < 64

/-- The rules of a bank command (R285): never striped; field b 0 where it has no source; listed sub-operation and row
type. -/
def BArgs.ok (srcB : Bool) (subs : List (BitVec 2)) (bf16Ok : Bool) (o : BArgs) : Bool :=
  o.am != .striped && (srcB || o.b == 0) && subs.contains o.sub && (bf16Ok || !o.bf16)

/-- The instruction has words: the steps without encoding have none. -/
def Instr.hasWord : Instr → Bool
  | .escalationLogged | .asyncCauseTaken | .fetch | .icacheFill | .parkResume | .resultReturn
  | .loadDataReturn | .storeAck | .accessAccepted | .probeEcho | .bankGrant | .sliceDataServe | .l1Fill
  | .l2Fill | .hbmChannelServe | .walkComplete | .tlbinvWrite | .tlbinvDone | .rdclenWrite | .rdcRemovalDone
  | .domgenWrite | .domgenDone | .snapctlGo | .snapshotDone | .timesetWrite | .registerWrite | .swapctlHalt
  | .haltDrained | .swapctlGo | .swapExchangeDone | .purge | .errcntClear | .partitionEnable
  | .partitionDisable | .enableClearEffect | .nouvWrite | .resumeGo | .objectWindowRequest | .bar4Write
  | .bar4Read | .bar2Read | .bar2Write | .hostWindowCompletion | .attestationRequest | .secureBoot
  | .clockStep | .dispatcherTake | .packetVerify | .depctrGrant | .depctrRetry | .notbeforeReached
  | .placeContext | .packetComplete | .slotFill | .imageFetch | .displacement | .quantumPreempt
  | .readyPromotion | .stealProbe | .stealProbeResult | .stealBackoffEnd | .wake | .waittDeadline
  | .objectRequestArrival | .parentWake | .objectReply | .spillRefill | .switchCombine | .combinedReplySplit
  | .switchOutputGrant | .watchdogExpiry | .messageArrival | .messageRetry | .sendAnswer | .spawnAnswer
  | .arrivalCount | .quitComplete | .cpLaneStart | .cpUnit | .cpWritesAcked | .cpActionReply
  | .mxCommandStart | .mxGroup | .mxWritesAcked | .mxCtrReply | .gmmaAdmit | .gmmaPartDone
  | .accstDigestCompare | .twinCompare | .twinRestoreDone | .checkpointCompare | .registerRepair
  | .replayDone | .arrayError | .voltageLower | .linkFlitReceive | .nakReceive | .nakRepeat | .ackTimer
  | .laneFailure | .retrainDone | .timeFlitSend | .timeFlitReceive | .leaseStart | .handoverDone
  | .graceDeadline | .moveDone | .testEnd | .lineMove | .portDrained | .scoreTick | .hbeatTick
  | .killComplete | .illegalOp | .spawnCreation | .inboxRefill | .syncLoss => false
  | _ => true

/-- Well-formed operands, instruction by instruction (R17 and the entries). A step without encoding has no well-formed form: no
word decodes to it. -/
def Instr.wf : Instr → Bool
  | .loop a b _ => a != 0 && a != b
  | .l1inv dat ins _ => dat || ins
  | .oinit o => o.ok ⟨false, false, false, false, true⟩
  | .ofree o => o.ok ⟨false, false, false, false, false⟩
  | .oread o => o.ok ⟨false, false, false, true, true⟩
  | .cadd o => o.ok ⟨false, true, true, false, true⟩
  | .cwait o => o.ok ⟨true, true, false, false, true⟩
  | .cset o => o.ok ⟨false, true, false, false, true⟩
  | .barr o | .bwait o | .barw o => o.ok ⟨true, true, false, false, true⟩
  | .ltake o => o.ok ⟨true, true, false, false, false⟩
  | .lgive o => o.ok ⟨false, true, false, false, false⟩
  | .qput o => o.ok ⟨true, true, false, false, true⟩
  | .qget o => o.ok ⟨true, false, false, true, true⟩
  | .kwait o => o.ok ⟨true, false, false, false, false⟩
  | .ksig o | .kall o => o.ok ⟨false, false, false, false, false⟩
  | .feget o | .fepeek o => o.ok ⟨true, false, false, true, true⟩
  | .feput o => o.ok ⟨true, false, false, false, true⟩
  | .bkadd o | .bkmax o | .bkfma o => o.ok true [0] true
  | .bkscl o | .bkfill o => o.ok false [0] true
  | .bksmx o => o.ok false [0] true
  | .bkcvt o => o.ok true [0, 1, 2, 3] false
  | .bkred o => o.ok true [0, 1] true
  | .send d _ b _ nw => (nw || d == 0) && b.val % 2 == 0
  | .recv d a tag _ => d.val % 4 == 0 && d != 0 && (tag || a == 0)
  | .shli _ _ i | .shri _ _ i | .srai _ _ i => i.shiftOk
  | .fcmp _ _ _ p => p.toNat < 5
  | .fcvt _ _ k rm sat =>
      (k == 4 || k == 6 || !sat) && ((k != 5 && k != 7) || rm == .rne)
  | .vadd o | .vsub o => fnOk [0, 1, 3] o
  | .vmul o => fnOk [0, 1, 3, 4, 6] o
  | .vfma o => fnOk [0, 1, 3] o
  | .vmin o | .vmax o => fnOk [0, 2] o
  | .vabs o => fnOk [0, 1] o && o.vb == 0
  | .vand o | .vor o | .vxor o => o.fn == 0
  | .vshl o => o.ty.isInt && o.fn == 0
  | .vshr o => o.ty.isInt && (o.fn == 0 || o.fn == 2)
  | .vcmp o => if o.ty.isInt then o.fn.toNat < 7 && o.fn != 3 else o.fn.toNat < 5
  | .vsel o => o.fn == 0
  | .vbcast o => o.fn == 0
  | .vins o | .vext o => o.lane.toNat < o.ty.lanes
  | .vredadd o | .vredmax o => o.fn == 0 || (o.fn == 1 && o.ty.isInt)
  | .vperm o => o.fn == 0
  | .vcvt o =>
      -- vb holds the part, fn[2:0] the source type code, fn[3] R (R233)
      match o.fn.toNat % 8 with
      | 7 => false
      | c =>
        let ws := [8, 16, 32, 16, 16, 32, 64].getD c 8
        let tc := match o.ty with | .i8 => 0 | .i16 => 1 | .i32 => 2 | .f16 => 3 | .bf16 => 4 | .f32 => 5 | .i64 => 6
        tc != c && o.vb.val < 8
          && (if ws ≤ o.ty.width then o.vb.val < o.ty.width / ws else o.vb.val < ws / o.ty.width)
  | .vexp2 o | .vrcp o => o.ty == .f32 && o.vb == 0 && o.fn == 0
  | .vdot4 o => o.ty == .i8 && o.fn.toNat < 3
  | .vaddsub o => o.ty != .i64 && o.fn == 0
  | .mop o => o.fn.toNat < 6 && (o.fn.toNat < 4 || o.mb == 0)
  | .unpk3 o => o.ty == .i8 && o.vb == 0 && o.fn.toNat < 5
  | .unpk4 o => o.vb == 0 && ((o.ty == .i8 && o.fn.toNat < 2) || (o.ty == .i16 && o.fn.toNat < 4))
  | .unpki3 o => o.ty == .i8 && o.vb == 0 && o.fn.toNat < 2
  | i => i.hasWord

end Sys2Proof
end

