-- ==== Sys2Proof/Machine/Operands.lean ====
section
/-!
DEFINITION. Operand forms: the values of immediates and offsets (R20 to R22), and which registers an instruction reads
and writes, named or implied (R187).
-/
namespace Sys2Proof

/-- sx({ext, imm11}, 11 or 41) as a 64-bit value (R21). -/
def Imm11.value (i : Imm11) : Word :=
  match i.ext with
  | none => i.lo.signExtend 64
  | some e => (e ++ i.lo).signExtend 64

/-- sx({ext, imm16}, 16 or 46) as a 64-bit value (R21). -/
def Imm16.value (i : Imm16) : Word :=
  match i.ext with
  | none => i.lo.signExtend 64
  | some e => (e ++ i.lo).signExtend 64

/-- zx of the TRAP code, 16 or 46 bits (R372). -/
def Imm16.zvalue (i : Imm16) : Word :=
  match i.ext with
  | none => i.lo.zeroExtend 64
  | some e => (e ++ i.lo).zeroExtend 64

/-- The byte offset of a format-M operand: off6 times the access size, or {ext, off6} unscaled (R22, R256). -/
def Off6.value (o : Off6) (size : Nat) : Word :=
  match o.ext with
  | none => o.lo.signExtend 64 * BitVec.ofNat 64 size
  | some e => (e ++ o.lo).signExtend 64

/-- First register of a format-E operand block (R19). -/
def EReg.first : EReg → Fin 32
  | .s8 => 8
  | .s16 => 16
  | .s24 => 24

/-- A register of one of the three files. -/
inductive RegName where
  | s (r : SReg)
  | v (r : VReg)
  | m (r : MReg)
  deriving DecidableEq, Repr

/-- TVAL of PENDING_READ and PENDING_WRITE: the file in [7:6], the number in [4:0] (R187). -/
def RegName.code : RegName → Nat
  | .s r => r.val
  | .v r => 64 + r.val
  | .m r => 128 + r.val

/-- s0 and m0 hold constants: a write is discarded (R29) and they are never pending (R187). -/
def RegName.isConst : RegName → Bool
  | .s r => r == 0
  | .m r => r == 0
  | .v _ => false

/-- The four vectors of a quad (R25). -/
def QReg.vecs (q : QReg) : List RegName :=
  [.v (Fin.ofNat 16 (4 * q.val)), .v (Fin.ofNat 16 (4 * q.val + 1)), .v (Fin.ofNat 16 (4 * q.val + 2)),
   .v (Fin.ofNat 16 (4 * q.val + 3))]

/-- The next scalar register, as d+1 of a .nw request. -/
def SReg.next (r : SReg) (k : Nat) : SReg := Fin.ofNat 32 (r.val + k)

/-- The eight registers of a format-E block. -/
def EReg.block (a : EReg) : List RegName :=
  (List.range 8).map fun k => .s (SReg.next a.first k)

/-- The mask of a vector instruction, and its destination when inactive lanes keep their values (R222). -/
def merged (m : MReg) (vd : VReg) : List RegName :=
  if m = 0 then [.m m] else [.m m, .v vd]

/-- Registers an object instruction writes (R94): the status pair under .nw, else the result. -/
def OArgs.dests (o : OArgs) : List RegName :=
  if o.nw then [.s o.d, .s (SReg.next o.d 1)] else [.s o.d]

/-- VCVT keeps the destination lanes that no source lane reaches when it narrows (R233). DEDUCED, notes/assumptions/15.md. -/
def VArgs.narrows (o : VArgs) : Bool :=
  o.ty.width < [8, 16, 32, 16, 16, 32, 64].getD (o.fn.toNat % 8) 8

/-- The registers an instruction reads, named or implied (R187). A destination counts as read under a mask where its unset lanes keep
their values (R222): not that of UNPK3, whose mask chooses records, nor the scalar one of VREDADD and VREDMAX. DESIGN CHOICE,
notes/assumptions/67.md. -/
def Instr.reads : Instr → List RegName
  | .beq a b _ | .bne a b _ | .blt a b _ | .bge a b _ | .bltu a b _ | .bgeu a b _ | .loop a b _ => [.s a, .s b]
  | .jr a _ | .callr a _ => [.s a]
  | .ldb o | .ldbu o | .ldh o | .ldhu o | .ldw o | .ldwu o | .ldd o => [.s o.base]
  | .lda o => [.s o.base]
  | .stb o | .sth o | .stw o | .std o => [.s o.base, .s o.d]
  | .stl o => [.s o.base, .s o.d]
  | .l1inv _ _ (.line base _) => [.s base]
  | .vld o => [.s o.base]
  | .vst o => [.s o.base, .v o.v]
  | .vlds o => [.s o.a, .s o.b]
  | .vsts o => [.s o.a, .s o.b, .v o.v]
  | .gld o => [.s o.base]
  | .gst o => .s o.base :: o.q.vecs
  | .oinit o | .ofree o | .oread o | .cadd o | .cwait o | .cset o | .barr o | .bwait o | .barw o | .ltake o | .lgive o
  | .qput o | .qget o | .kwait o | .ksig o | .kall o | .feget o | .feput o | .fepeek o => [.s o.a, .s o.b]
  | .aadd o | .aswap o | .amax o | .amin o | .aand o | .aor o | .axor o => [.s o.a, .s o.b]
  | .acas o => [.s o.a, .s o.b, .s o.d]
  | .bkadd o | .bkmax o | .bkscl o | .bkfma o | .bksmx o | .bkcvt o | .bkfill o | .bkred o => [.s o.d, .s o.a, .s o.b]
  | .mxc _ a | .cpc _ a => a.block
  | .spawn _ a b | .fork _ a b => [.s a, .s b, .s 4, .s 5, .s 6, .s 7]
  | .waitt _ a b | .arrMatch _ a b _ | .plbw _ a b => [.s a, .s b]
  | .send _ a b _ _ => [.s a, .s b, .s (if b = 0 then 0 else SReg.next b 1)]
  | .recv _ a tag _ => if tag then [.s a] else []
  | .mtc _ a => [.s a]
  | .kill _ a _ _ => [.s a]
  | .add _ _ a b | .sub _ _ a b | .mul _ _ a b | .div _ _ a b | .divu _ _ a b | .rem _ _ a b | .remu _ _ a b => [.s a, .s b]
  | .and _ a b | .or _ a b | .xor _ a b | .andn _ a b | .shl _ a b | .shr _ a b | .sra _ a b | .mulh _ a b | .mulhu _ a b
  | .min _ a b | .max _ a b | .minu _ a b | .maxu _ a b | .cmpeq _ a b | .cmpne _ a b | .cmplt _ a b | .cmpltu _ a b
  | .cmple _ a b | .cmpleu _ a b => [.s a, .s b]
  | .sel _ a b c | .ffma _ a b c => [.s a, .s b, .s c]
  | .clz _ a | .ctz _ a | .popc _ a => [.s a]
  | .bfx _ a b _ => [.s a, .s b]
  | .bfi d a b => [.s a, .s b, .s d]
  | .addi _ a _ | .andi _ a _ | .ori _ a _ | .xori _ a _ | .shli _ a _ | .shri _ a _ | .srai _ a _ | .cmpeqi _ a _
  | .cmplti _ a _ => [.s a]
  | .fadd _ a b | .fsub _ a b | .fmul _ a b | .fmin _ a b | .fmax _ a b | .fdiv _ a b | .fcmp _ a b _ => [.s a, .s b]
  | .fsqrt _ a | .fcvt _ a _ _ _ | .fclass _ a => [.s a]
  | .vadd o | .vsub o | .vmul o | .vmin o | .vmax o | .vand o | .vor o | .vxor o | .vshl o | .vshr o | .vperm o =>
      [.v o.va, .v o.vb] ++ merged o.m o.vd
  | .vfma o => [.v o.va, .v o.vb, .v o.vd, .m o.m]
  | .vabs o | .vexp2 o | .vrcp o | .unpk4 o | .unpki3 o => .v o.va :: merged o.m o.vd
  | .vcmp o => [.v o.va, .v o.vb, .m o.m]
  | .vsel o => [.v o.va, .v o.vb, .m o.m]
  | .vbcast o => .s o.s :: merged o.m o.v
  | .vins o => [.s o.s, .v o.v]
  | .vext o => [.v o.v]
  | .vredadd o | .vredmax o => [.v o.v, .m o.m]
  | .vcvt o => if o.narrows then [.v o.va, .v o.vd, .m o.m] else .v o.va :: merged o.m o.vd
  | .vdot4 o | .vaddsub o => [.v o.va, .v o.vb, .v o.vd, .m o.m]
  | .mop o => [.m o.ma, .m o.mb]
  | .unpk3 o => [.v o.va]
  | .gadd _ ga gb _ | .gext _ ga gb | .gdamp _ ga gb | .gres _ ga gb => ga.vecs ++ gb.vecs
  | .gelim _ ga _ | .gmean _ ga => ga.vecs
  | _ => []

/-- The registers an instruction writes, named or implied (R187). -/
def Instr.writes : Instr → List RegName
  | .loop a _ _ => [.s a]
  | .call _ | .callr _ _ => [.s 1]
  | .ldb o | .ldbu o | .ldh o | .ldhu o | .ldw o | .ldwu o | .ldd o => [.s o.d]
  | .lda o => [.s o.d]
  | .vld o => [.v o.v]
  | .vlds o => [.v o.v]
  | .gld o => o.q.vecs
  | .oinit o | .ofree o | .oread o | .cadd o | .cwait o | .cset o | .barr o | .bwait o | .barw o | .ltake o | .lgive o
  | .qput o | .qget o | .kwait o | .ksig o | .kall o | .feget o | .feput o | .fepeek o => o.dests
  | .aadd o | .aswap o | .acas o | .amax o | .amin o | .aand o | .aor o | .axor o => [.s o.d]
  | .mxc d _ | .cpc d _ | .estat d _ _ | .spawn d _ _ | .fork d _ _ | .arrMatch d _ _ _ | .waitt d _ _ | .mfc d _
  | .kill d _ _ _ | .plbw d _ _ => [.s d]
  | .send d _ _ _ nw => if nw then [.s d] else []
  | .recv d _ _ _ => [.s d, .s (SReg.next d 1), .s (SReg.next d 2), .s (SReg.next d 3)]
  | .add _ d _ _ | .sub _ d _ _ | .mul _ d _ _ | .div _ d _ _ | .divu _ d _ _ | .rem _ d _ _ | .remu _ d _ _ => [.s d]
  | .and d _ _ | .or d _ _ | .xor d _ _ | .andn d _ _ | .shl d _ _ | .shr d _ _ | .sra d _ _ | .mulh d _ _ | .mulhu d _ _
  | .min d _ _ | .max d _ _ | .minu d _ _ | .maxu d _ _ | .cmpeq d _ _ | .cmpne d _ _ | .cmplt d _ _ | .cmpltu d _ _
  | .cmple d _ _ | .cmpleu d _ _ => [.s d]
  | .sel d _ _ _ | .ffma d _ _ _ => [.s d]
  | .clz d _ | .ctz d _ | .popc d _ => [.s d]
  | .bfx d _ _ _ => [.s d]
  | .bfi d _ _ => [.s d]
  | .addi d _ _ | .andi d _ _ | .ori d _ _ | .xori d _ _ | .shli d _ _ | .shri d _ _ | .srai d _ _ | .cmpeqi d _ _
  | .cmplti d _ _ => [.s d]
  | .li d _ | .lui d _ => [.s d]
  | .fadd d _ _ | .fsub d _ _ | .fmul d _ _ | .fmin d _ _ | .fmax d _ _ | .fdiv d _ _ | .fcmp d _ _ _ => [.s d]
  | .fsqrt d _ | .fcvt d _ _ _ _ | .fclass d _ => [.s d]
  | .vadd o | .vsub o | .vmul o | .vmin o | .vmax o | .vand o | .vor o | .vxor o | .vshl o | .vshr o | .vperm o | .vfma o
  | .vabs o | .vexp2 o | .vrcp o | .unpk4 o | .unpki3 o | .vsel o | .vcvt o | .vdot4 o | .vaddsub o => [.v o.vd]
  | .vcmp o => [.m o.md]
  | .vbcast o => [.v o.v]
  | .vins o => [.v o.v]
  | .vext o => [.s o.s]
  | .vredadd o | .vredmax o => [.s o.s]
  | .mop o => [.m o.md]
  | .unpk3 o => [.v o.vd, .m o.m]
  | .gadd gd _ _ _ | .gext gd _ _ | .gdamp gd _ _ => gd.vecs
  | .gelim gd _ _ | .gmean gd _ => gd.vecs
  | .gres s _ _ => [.s s]
  | _ => []

/-- The two halves of a pair name one destination (R14); the constants s0 and m0 do not count. -/
def destConflict (h t : Instr) : Bool :=
  h.writes.any fun r => !r.isConst && t.writes.contains r

/-- Scopes in order (R292). -/
def Scope.rank : Scope → Nat
  | .core => 0
  | .cluster => 1
  | .die => 2
  | .module => 3
  | .pod => 4

/-- The wider of two scopes (R95). -/
def Scope.max (a b : Scope) : Scope := if a.rank < b.rank then b else a

end Sys2Proof
end

