-- ==== Sys2Proof/Decode.lean ====
section
/-!
DEFINITION. The decoder: bytes of memory to words, words to a bundle, a word with its extension to an instruction
(R8 to R28), total and rejecting by name; then the encoder, from the same tables.
-/
namespace Sys2Proof

/-- Fields of the operand bits [20:0], by position. -/
def fld (f : BitVec 21) (lo n : Nat) : BitVec n := f.extractLsb' lo n

/-- Register fields d [20:16], a [15:11], b [10:6] of RRR and its relatives (R19). -/
def fD (f : BitVec 21) : SReg := (fld f 16 5).toFin
/-- Field a. -/
def fA (f : BitVec 21) : SReg := (fld f 11 5).toFin
/-- Field b. -/
def fB (f : BitVec 21) : SReg := (fld f 6 5).toFin
/-- Field fn. -/
def fFn (f : BitVec 21) : BitVec 6 := fld f 0 6

/-- am (R22). -/
def decAm (b : BitVec 2) : AddrMode :=
  if b = 0 then .global else if b = 1 then .slabLocal else if b = 2 then .striped else .own

/-- A scope field of LDA, STL and FENCE: 5 to 7 are reserved (R22). -/
def decScope (b : BitVec 3) : Option Scope :=
  if b = 0 then some .core else if b = 1 then some .cluster else if b = 2 then some .die
  else if b = 3 then some .module else if b = 4 then some .pod else none

/-- A scope override: 0 is "by home distance", 6 and 7 are reserved (R23). -/
def decOvr (b : BitVec 3) : Option (Option Scope) :=
  if b = 0 then some none else (decScope (b - 1)).map some

/-- A vector type code: 0b111 is reserved (R24). -/
def decTy (b : BitVec 3) : Option LaneType :=
  if b = 0 then some .i8 else if b = 1 then some .i16 else if b = 2 then some .i32 else if b = 3 then some .f16
  else if b = 4 then some .bf16 else if b = 5 then some .f32 else if b = 6 then some .i64 else none

/-- A rounding mode (R47). -/
def decRnd (b : BitVec 2) : Rnd :=
  if b = 0 then .rne else if b = 1 then .rtz else if b = 2 then .rdn else .rup

/-- Field a of format E (R19). -/
def decE (f : BitVec 21) : Option EReg :=
  if fld f 0 11 ≠ 0 then none
  else if fld f 11 5 = 8 then some .s8 else if fld f 11 5 = 16 then some .s16 else if fld f 11 5 = 24 then some .s24
  else none

/-- Format RRR with fn = 0. -/
def decRRR (f : BitVec 21) (mk : SReg → SReg → SReg → Instr) : Option Instr :=
  if fFn f = 0 then some (mk (fD f) (fA f) (fB f)) else none

/-- Format RRR with W32 in fn[0] (R199). -/
def decW32 (f : BitVec 21) (mk : Bool → SReg → SReg → SReg → Instr) : Option Instr :=
  if fld f 1 5 = 0 then some (mk (fld f 0 1 == 1) (fD f) (fA f) (fB f)) else none

/-- Format RRR with one source: b and fn 0 (R199). -/
def decUn (f : BitVec 21) (mk : SReg → SReg → Instr) : Option Instr :=
  if fld f 0 11 = 0 then some (mk (fD f) (fA f)) else none

/-- Format RRR with a third source in fn[4:0] (R199). -/
def decTri (f : BitVec 21) (mk : SReg → SReg → SReg → SReg → Instr) : Option Instr :=
  if fld f 5 1 = 0 then some (mk (fD f) (fA f) (fB f) (fld f 0 5).toFin) else none

/-- Format RI. -/
def decRI (f : BitVec 21) (e : Option (BitVec 30)) (mk : SReg → SReg → Imm11 → Instr) : Option Instr :=
  some (mk (fD f) (fA f) ⟨fld f 0 11, e⟩)

/-- Format LI. -/
def decLI (f : BitVec 21) (e : Option (BitVec 30)) (mk : SReg → Imm16 → Instr) : Option Instr :=
  some (mk (fD f) ⟨fld f 0 16, e⟩)

/-- Format BR: a [20:16], b [15:11] (R20). -/
def decBR (f : BitVec 21) (e : Option (BitVec 30)) (mk : SReg → SReg → Imm11 → Instr) : Option Instr :=
  some (mk (fD f) (fA f) ⟨fld f 0 11, e⟩)

/-- Format M of a scalar load or store: [7:6] reserved, [8] X (R22, R255). -/
def decM (f : BitVec 21) (e : Option (BitVec 30)) (mk : MArgs → Instr) : Option Instr :=
  if fld f 6 2 = 0 then some (mk ⟨fD f, fA f, decAm (fld f 9 2), fld f 8 1 == 1, ⟨fld f 0 6, e⟩⟩) else none

/-- Format M of LDA and STL: a scope in [8:6]. -/
def decMSc (f : BitVec 21) (e : Option (BitVec 30)) (mk : ScArgs → Instr) : Option Instr :=
  (decScope (fld f 6 3)).map fun sc => mk ⟨fD f, fA f, decAm (fld f 9 2), sc, ⟨fld f 0 6, e⟩⟩

/-- Format M of VLD and VST: d is 0 to 15 (R22). -/
def decMV (f : BitVec 21) (e : Option (BitVec 30)) (mk : VMArgs → Instr) : Option Instr :=
  if fld f 6 2 = 0 ∧ fld f 20 1 = 0 then
    some (mk ⟨(fld f 16 4).toFin, fA f, decAm (fld f 9 2), fld f 8 1 == 1, ⟨fld f 0 6, e⟩⟩)
  else none

/-- Format M of GLD and GST: d is 0 to 3 (R22). -/
def decMG (f : BitVec 21) (e : Option (BitVec 30)) (mk : GMArgs → Instr) : Option Instr :=
  if fld f 6 2 = 0 ∧ fld f 18 3 = 0 then
    some (mk ⟨(fld f 16 2).toFin, fA f, decAm (fld f 9 2), fld f 8 1 == 1, ⟨fld f 0 6, e⟩⟩)
  else none

/-- FENCE: am, d, base and off6 are 0, an extension must be zero (R255). -/
def decFence (f : BitVec 21) (e : Option (BitVec 30)) : Option Instr :=
  if fld f 9 12 = 0 ∧ fld f 0 6 = 0 ∧ e.getD 0 = 0 then
    (decScope (fld f 6 3)).map fun sc => .fence sc e.isSome
  else none

/-- L1INV (R264): d[4:3] 0, d[2] the line form; the whole form has base, off6 and any extension zero. -/
def decL1inv (f : BitVec 21) (e : Option (BitVec 30)) : Option Instr :=
  if fld f 19 2 = 0 ∧ fld f 6 5 = 0 then
    if fld f 18 1 = 1 then some (.l1inv (fld f 16 1 == 1) (fld f 17 1 == 1) (.line (fA f) ⟨fld f 0 6, e⟩))
    else if fld f 11 5 = 0 ∧ fld f 0 6 = 0 ∧ e.getD 0 = 0 then
      some (.l1inv (fld f 16 1 == 1) (fld f 17 1 == 1) (.whole e.isSome))
    else none
  else none

/-- VLDS and VSTS: d 0 to 15, fn = {type, X, am} (R27, R260). -/
def decStride (f : BitVec 21) (mk : StrideArgs → Instr) : Option Instr :=
  if fld f 20 1 = 0 then
    (decTy (fld f 3 3)).map fun ty =>
      mk ⟨(fld f 16 4).toFin, fA f, fB f, decAm (fld f 0 2), fld f 2 1 == 1, ty⟩
  else none

/-- Format O of an object instruction (R23). -/
def decO (f : BitVec 21) (mk : OArgs → Instr) : Option Instr :=
  (decOvr (fld f 3 3)).map fun o =>
    mk ⟨fD f, fA f, fB f, o, fld f 2 1 == 1, fld f 1 1 == 1, fld f 0 1 == 1⟩

/-- Format O of an untyped atomic: [5:3] the width, no flags (R124, R113). -/
def decAt (f : BitVec 21) (mk : AArgs → Instr) : Option Instr :=
  if fld f 0 3 = 0 ∧ fld f 4 2 = 0 then some (mk ⟨fD f, fA f, fB f, fld f 3 1 == 1⟩) else none

/-- A bank command: fn = {sub, row type, X, am} (R285). -/
def decB (f : BitVec 21) (mk : BArgs → Instr) : Option Instr :=
  some (mk ⟨fD f, fA f, fB f, decAm (fld f 0 2), fld f 2 1 == 1, fld f 3 1 == 1, fld f 4 2⟩)

/-- Format V (R24). -/
def decV (f : BitVec 21) (mk : VArgs → Instr) : Option Instr :=
  (decTy (fld f 6 3)).map fun ty =>
    mk ⟨(fld f 17 4).toFin, (fld f 13 4).toFin, (fld f 9 4).toFin, ty, (fld f 4 2).toFin, fld f 0 4⟩

/-- Scalar layout of format V with mask and fn; [11:9] reserved (R24). -/
def decVS (f : BitVec 21) (mk : VSArgs → Instr) : Option Instr :=
  if fld f 9 3 = 0 then
    (decTy (fld f 6 3)).map fun ty => mk ⟨(fld f 17 4).toFin, (fld f 12 5).toFin, ty, (fld f 4 2).toFin, fld f 0 4⟩
  else none

/-- Scalar layout of format V with a lane index (R24). -/
def decVL (f : BitVec 21) (mk : VLArgs → Instr) : Option Instr :=
  if fld f 9 3 = 0 then
    (decTy (fld f 6 3)).map fun ty => mk ⟨(fld f 17 4).toFin, (fld f 12 5).toFin, ty, fld f 0 6⟩
  else none

/-- VCMP: the destination mask in vd[1:0], vd[3:2] 0 (R224). -/
def decVC (f : BitVec 21) (mk : VCArgs → Instr) : Option Instr :=
  if fld f 19 2 = 0 then
    (decTy (fld f 6 3)).map fun ty =>
      mk ⟨(fld f 17 2).toFin, (fld f 13 4).toFin, (fld f 9 4).toFin, ty, (fld f 4 2).toFin, fld f 0 4⟩
  else none

/-- MOP: three masks, mask field 0 (R224, R228). -/
def decMop (f : BitVec 21) : Option Instr :=
  if fld f 19 2 = 0 ∧ fld f 15 2 = 0 ∧ fld f 11 2 = 0 ∧ fld f 4 2 = 0 then
    (decTy (fld f 6 3)).map fun ty =>
      .mop ⟨(fld f 17 2).toFin, (fld f 13 2).toFin, (fld f 9 2).toFin, ty, fld f 0 4⟩
  else none

/-- The quads of format G (R25). -/
def fGd (f : BitVec 21) : QReg := (fld f 19 2).toFin
/-- Quad ga. -/
def fGa (f : BitVec 21) : QReg := (fld f 17 2).toFin
/-- Quad gb. -/
def fGb (f : BitVec 21) : QReg := (fld f 15 2).toFin

/-- Format G with gd, ga, gb and nothing else. -/
def decG (f : BitVec 21) (mk : QReg → QReg → QReg → Instr) : Option Instr :=
  if fld f 0 15 = 0 then some (mk (fGd f) (fGa f) (fGb f)) else none

/-- The C-side map (R27): the instruction of an opcode, its operand bits and its extension; `none` for an opcode that is
not listed or a reserved field. -/
def decodeC (op : Nat) (f : BitVec 21) (e : Option (BitVec 30)) : Option Instr :=
  match op with
  | 0x00 => if f = 0 then some .nopc else none
  | 0x01 => decBR f e .beq
  | 0x02 => decBR f e .bne
  | 0x03 => decBR f e .blt
  | 0x04 => decBR f e .bge
  | 0x05 => decBR f e .bltu
  | 0x06 => decBR f e .bgeu
  | 0x07 => decBR f e .loop
  | 0x08 => some (.jmp f)
  | 0x09 => some (.call f)
  | 0x0A => if fld f 16 5 = 0 then some (.jr (fA f) ⟨fld f 0 11, e⟩) else none
  | 0x0B => if fld f 16 5 = 0 then some (.callr (fA f) ⟨fld f 0 11, e⟩) else none
  | 0x10 => decM f e .ldb
  | 0x11 => decM f e .ldbu
  | 0x12 => decM f e .ldh
  | 0x13 => decM f e .ldhu
  | 0x14 => decM f e .ldw
  | 0x15 => decM f e .ldwu
  | 0x16 => decM f e .ldd
  | 0x17 => decMSc f e .lda
  | 0x18 => decM f e .stb
  | 0x19 => decM f e .sth
  | 0x1A => decM f e .stw
  | 0x1B => decM f e .std
  | 0x1C => decMSc f e .stl
  | 0x1D => decFence f e
  | 0x1E => decL1inv f e
  | 0x20 => decMV f e .vld
  | 0x21 => decMV f e .vst
  | 0x22 => decStride f .vlds
  | 0x23 => decStride f .vsts
  | 0x24 => decMG f e .gld
  | 0x25 => decMG f e .gst
  | 0x28 => decO f .oinit
  | 0x29 => decO f .ofree
  | 0x2A => decO f .oread
  | 0x2B => decO f .cadd
  | 0x2C => decO f .cwait
  | 0x2D => decO f .cset
  | 0x2E => decO f .barr
  | 0x2F => decO f .bwait
  | 0x30 => decO f .barw
  | 0x31 => decO f .ltake
  | 0x32 => decO f .lgive
  | 0x33 => decO f .qput
  | 0x34 => decO f .qget
  | 0x35 => decO f .kwait
  | 0x36 => decO f .ksig
  | 0x37 => decO f .kall
  | 0x38 => decO f .feget
  | 0x39 => decO f .feput
  | 0x3A => decO f .fepeek
  | 0x40 => decAt f .aadd
  | 0x41 => decAt f .aswap
  | 0x42 => decAt f .acas
  | 0x43 => decAt f .amax
  | 0x44 => decAt f .amin
  | 0x45 => decAt f .aand
  | 0x46 => decAt f .aor
  | 0x47 => decAt f .axor
  | 0x48 => decB f .bkadd
  | 0x49 => decB f .bkmax
  | 0x4A => decB f .bkscl
  | 0x4B => decB f .bkfma
  | 0x4C => decB f .bksmx
  | 0x4D => decB f .bkcvt
  | 0x4E => decB f .bkfill
  | 0x4F => decB f .bkred
  | 0x50 => (decE f).map fun a => .mxc (fD f) a
  | 0x51 => (decE f).map fun a => .cpc (fD f) a
  | 0x52 => if fld f 2 14 = 0 then some (.estat (fD f) (fld f 0 1 == 1) (fld f 1 1 == 1)) else none
  | 0x58 => decRRR f .spawn
  | 0x59 => decRRR f .fork
  | 0x5A => if f = 0 then some .quit else none
  | 0x5B => if f = 0 then some .yield else none
  | 0x5C => if fld f 4 2 = 0 then (decOvr (fld f 1 3)).map fun o => .send (fD f) (fA f) (fB f) o (fld f 0 1 == 1) else none
  | 0x5D => if fld f 2 9 = 0 then some (.recv (fD f) (fA f) (fld f 1 1 == 1) (fld f 0 1 == 1)) else none
  | 0x5E => if fld f 1 5 = 0 then some (.arrMatch (fD f) (fA f) (fB f) (fld f 0 1 == 1)) else none
  | 0x5F => decRRR f .waitt
  | 0x70 => if fld f 12 4 = 0 then some (.mfc (fD f) (fld f 0 12)) else none
  | 0x71 => if fld f 12 4 = 0 then some (.mtc (fld f 0 12) (fD f)) else none
  | 0x72 => if fld f 16 5 = 0 then some (.trap ⟨fld f 0 16, e⟩) else none
  | 0x73 => if fld f 1 20 = 0 then some (.rft (fld f 0 1 == 1)) else none
  | 0x74 => if fld f 2 9 = 0 then some (.kill (fD f) (fA f) (fld f 1 1 == 1) (fld f 0 1 == 1)) else none
  | 0x75 => if f = 0 then some .halt else none
  | 0x76 => decRRR f .plbw
  | _ => none

/-- The A-side map (R28). -/
def decodeA (op : Nat) (f : BitVec 21) (e : Option (BitVec 30)) : Option Instr :=
  match op with
  | 0x00 => if f = 0 then some .nopa else none
  | 0x01 => decW32 f .add
  | 0x02 => decW32 f .sub
  | 0x03 => decRRR f .and
  | 0x04 => decRRR f .or
  | 0x05 => decRRR f .xor
  | 0x06 => decRRR f .andn
  | 0x07 => decRRR f .shl
  | 0x08 => decRRR f .shr
  | 0x09 => decRRR f .sra
  | 0x0A => decW32 f .mul
  | 0x0B => decRRR f .mulh
  | 0x0C => decRRR f .mulhu
  | 0x0D => decW32 f .div
  | 0x0E => decW32 f .divu
  | 0x0F => decW32 f .rem
  | 0x10 => decW32 f .remu
  | 0x11 => decRRR f .min
  | 0x12 => decRRR f .max
  | 0x13 => decRRR f .minu
  | 0x14 => decRRR f .maxu
  | 0x15 => decRRR f .cmpeq
  | 0x16 => decRRR f .cmpne
  | 0x17 => decRRR f .cmplt
  | 0x18 => decRRR f .cmpltu
  | 0x19 => decRRR f .cmple
  | 0x1A => decRRR f .cmpleu
  | 0x1B => decTri f .sel
  | 0x1C => decUn f .clz
  | 0x1D => decUn f .ctz
  | 0x1E => decUn f .popc
  | 0x1F => if fld f 1 5 = 0 then some (.bfx (fD f) (fA f) (fB f) (fld f 0 1 == 1)) else none
  | 0x20 => decRRR f .bfi
  | 0x21 => decRI f e .addi
  | 0x22 => decRI f e .andi
  | 0x23 => decRI f e .ori
  | 0x24 => decRI f e .xori
  | 0x25 => decRI f e .shli
  | 0x26 => decRI f e .shri
  | 0x27 => decRI f e .srai
  | 0x28 => decRI f e .cmpeqi
  | 0x29 => decRI f e .cmplti
  | 0x2A => decLI f e .li
  | 0x2B => decLI f e .lui
  | 0x30 => decRRR f .fadd
  | 0x31 => decRRR f .fsub
  | 0x32 => decRRR f .fmul
  | 0x33 => decTri f .ffma
  | 0x34 => decRRR f .fmin
  | 0x35 => decRRR f .fmax
  | 0x36 => decRRR f .fdiv
  | 0x37 => decUn f .fsqrt
  | 0x38 => if fld f 3 3 = 0 then some (.fcmp (fD f) (fA f) (fB f) (fld f 0 3)) else none
  | 0x39 => if fld f 6 5 = 0 then some (.fcvt (fD f) (fA f) (fld f 0 3) (decRnd (fld f 3 2)) (fld f 5 1 == 1)) else none
  | 0x3A => decUn f .fclass
  | 0x40 => decV f .vadd
  | 0x41 => decV f .vsub
  | 0x42 => decV f .vmul
  | 0x43 => decV f .vfma
  | 0x44 => decV f .vmin
  | 0x45 => decV f .vmax
  | 0x46 => decV f .vabs
  | 0x47 => decV f .vand
  | 0x48 => decV f .vor
  | 0x49 => decV f .vxor
  | 0x4A => decV f .vshl
  | 0x4B => decV f .vshr
  | 0x4C => decVC f .vcmp
  | 0x4D => decV f .vsel
  | 0x4E => decVS f .vbcast
  | 0x4F => decVL f .vins
  | 0x50 => decVL f .vext
  | 0x51 => decVS f .vredadd
  | 0x52 => decVS f .vredmax
  | 0x53 => decV f .vperm
  | 0x54 => decV f .vcvt
  | 0x55 => decV f .vexp2
  | 0x56 => decV f .vrcp
  | 0x57 => decV f .vdot4
  | 0x58 => decV f .vaddsub
  | 0x59 => decMop f
  | 0x5C => decV f .unpk3
  | 0x5D => decV f .unpk4
  | 0x5E => decV f .unpki3
  | 0x60 => if fld f 1 14 = 0 then some (.gadd (fGd f) (fGa f) (fGb f) (fld f 0 1 == 1)) else none
  | 0x61 => decG f .gext
  | 0x62 => if fld f 7 10 = 0 then some (.gelim (fGd f) (fGa f) (fld f 0 7)) else none
  | 0x63 => decG f .gdamp
  | 0x64 => if fld f 0 10 = 0 ∧ fld f 19 2 = 0 then some (.gres (fld f 10 5).toFin (fGa f) (fGb f)) else none
  | 0x65 => if fld f 0 17 = 0 then some (.gmean (fGd f) (fGa f)) else none
  | _ => none

/-- The opcodes whose format accepts an extension word: RI, LI, BR and M (R13). -/
def acceptsExt (side : Bool) (op : Nat) : Bool :=
  if side then 0x21 ≤ op && op ≤ 0x2B
  else (0x01 ≤ op && op ≤ 0x07) || op == 0x0A || op == 0x0B || (0x10 ≤ op && op ≤ 0x1E) || op == 0x20 || op == 0x21
    || op == 0x24 || op == 0x25 || op == 0x72

/-- The fields of an instruction word (R8). -/
def Code.cls (w : Code) : BitVec 2 := w.extractLsb' 30 2
/-- The switch marker W. -/
def Code.mark (w : Code) : Bool := w.getLsbD 29
/-- SIDE: true for the A map. -/
def Code.side (w : Code) : Bool := w.getLsbD 28
/-- OP [27:21]. -/
def Code.opc (w : Code) : Nat := (w.extractLsb' 21 7).toNat
/-- Operand bits [20:0]. -/
def Code.opnd (w : Code) : BitVec 21 := w.extractLsb' 0 21
/-- The immediate bits of an extension word. -/
def Code.extBits (w : Code) : BitVec 30 := w.extractLsb' 0 30

/-- One instruction word with the extension it claims, well-formed operands included (R17). -/
def decodeInstr (w : Code) (e : Option (BitVec 30)) : Option Instr :=
  match (if Code.side w then decodeA (Code.opc w) (Code.opnd w) e else decodeC (Code.opc w) (Code.opnd w) e) with
  | some i => if i.wf then some i else none
  | none => none

/-- Why a bundle decodes to no instruction, with the offending word as TVAL (R15, R18). -/
inductive DecodeFault where
  | misalignedPair (tval : Word)
  | illegalOp (tval : Word)
  | extUnclaimed (tval : Word)
  deriving DecidableEq, Repr

/-- The leading class-0b11 words of a list (R11 step 3). -/
def takeExt : List Code → List Code
  | [] => []
  | w :: ws => if Code.cls w = 3 then w :: takeExt ws else []

/-- The bundle that starts a list of words, and how many words it has; the causes in the order of R18. `aligned8` says that
the first word stands at a multiple of 8 (R12). Of an instruction that only its extension word makes illegal, the instruction word is the
offending one (R15, R203, R255). DESIGN CHOICE, notes/assumptions/14.md. -/
def decodeBundle (aligned8 : Bool) (ws : List Code) : Except DecodeFault (Bundle × Nat) :=
  match ws with
  | [] => .error (.illegalOp 0)
  | w0 :: rest =>
    let ill (w : Code) : Except DecodeFault (Bundle × Nat) := .error (.illegalOp (w.zeroExtend 64))
    if Code.cls w0 = 0 then
      if !aligned8 then .error (.misalignedPair (w0.zeroExtend 64))
      else match rest with
        | [] => ill w0
        | w1 :: rest' =>
          if Code.side w0 then ill w0
          else if Code.cls w1 ≠ 2 ∨ !Code.side w1 ∨ Code.mark w1 then ill w1
          else
            let ex := takeExt rest'
            let okH := acceptsExt false (Code.opc w0)
            let okT := acceptsExt true (Code.opc w1)
            let eH := if okH then ex.head?.map Code.extBits else none
            let eT := if okT then (ex.drop 1).head?.map Code.extBits else none
            match decodeInstr w0 eH with
            | none => ill w0
            | some h =>
              match decodeInstr w1 eT with
              | none => ill w1
              | some t =>
                if destConflict h t then ill w1
                else match ex with
                  | [] => .ok (⟨Code.mark w0, h, some t⟩, 2)
                  | [x] => if okH then .ok (⟨Code.mark w0, h, some t⟩, 3) else .error (.extUnclaimed (x.zeroExtend 64))
                  | x :: y :: more =>
                    if !okH then .error (.extUnclaimed (x.zeroExtend 64))
                    else if !okT then .error (.extUnclaimed (y.zeroExtend 64))
                    else match more with
                      | [] => .ok (⟨Code.mark w0, h, some t⟩, 4)
                      | z :: _ => .error (.extUnclaimed (z.zeroExtend 64))
    else if Code.cls w0 = 1 then
      let ex := takeExt rest
      let okH := acceptsExt (Code.side w0) (Code.opc w0)
      match decodeInstr w0 (if okH then ex.head?.map Code.extBits else none) with
      | none => ill w0
      | some i =>
        match ex with
        | [] => .ok (⟨Code.mark w0, i, none⟩, 1)
        | x :: more =>
          if !okH then .error (.extUnclaimed (x.zeroExtend 64))
          else match more with
            | [] => .ok (⟨Code.mark w0, i, none⟩, 2)
            | y :: _ => .error (.extUnclaimed (y.zeroExtend 64))
    else ill w0

/-- Four bytes, least significant first, as a word (R4). -/
def wordOfBytes : List Byte → Option (Code × List Byte)
  | a :: b :: c :: d :: rest => some (d ++ c ++ b ++ a, rest)
  | _ => none

/-- The bytes of memory as instruction words, little-endian. -/
def wordsOfBytes : List Byte → List Code
  | a :: b :: c :: d :: rest => (d ++ c ++ b ++ a) :: wordsOfBytes rest
  | _ => []

/-- Decoding of any bytes: the first bundle and the bytes after it, or the fault. -/
def decodeBytes (aligned8 : Bool) (bs : List Byte) : Except DecodeFault (Bundle × List Byte) :=
  match decodeBundle aligned8 (wordsOfBytes bs) with
  | .ok (b, n) => .ok (b, bs.drop (4 * n))
  | .error f => .error f

/-- The four bytes of a word, little-endian. -/
def bytesOfWord (w : Code) : List Byte :=
  [w.extractLsb' 0 8, w.extractLsb' 8 8, w.extractLsb' 16 8, w.extractLsb' 24 8]

/-- What the decoder reads from an instruction whose bits are w, numbered as spec/opcode_table.json numbers them; the
words after it are zero. -/
def decodeTableWord (nbits w : Nat) : Option Instr :=
  let first := BitVec.ofNat 32 (w % 2 ^ nbits)
  match decodeBytes true (bytesOfWord first ++ bytesOfWord 0) with
  | .ok (b, _) => some b.op
  | .error _ => none

/-! ### The encoder -/

/-- am (R22). -/
def encAm : AddrMode → BitVec 2
  | .global => 0
  | .slabLocal => 1
  | .striped => 2
  | .own => 3

/-- A scope field (R22). -/
def encScope : Scope → BitVec 3
  | .core => 0
  | .cluster => 1
  | .die => 2
  | .module => 3
  | .pod => 4

/-- A scope override (R23). -/
def encOvr : Option Scope → BitVec 3
  | none => 0
  | some s => encScope s + 1

/-- A vector type code (R24). -/
def encTy : LaneType → BitVec 3
  | .i8 => 0
  | .i16 => 1
  | .i32 => 2
  | .f16 => 3
  | .bf16 => 4
  | .f32 => 5
  | .i64 => 6

/-- A rounding mode (R47). -/
def encRnd : Rnd → BitVec 2
  | .rne => 0
  | .rtz => 1
  | .rdn => 2
  | .rup => 3

/-- A register number in its field. -/
def eR (r : SReg) : BitVec 5 := BitVec.ofFin r
/-- A vector number in its field. -/
def eV (r : VReg) : BitVec 4 := BitVec.ofFin r
/-- A mask or quad number in its field. -/
def eQ (r : Fin 4) : BitVec 2 := BitVec.ofFin r
/-- A flag bit. -/
def eB (b : Bool) : BitVec 1 := BitVec.ofBool b

/-- RRR operand bits. -/
def oRRR (d a b : SReg) (fn : BitVec 6) : BitVec 21 := eR d ++ eR a ++ eR b ++ fn
/-- RI and BR operand bits. -/
def oRI (d a : SReg) (i : Imm11) : BitVec 21 := eR d ++ eR a ++ i.lo
/-- LI operand bits. -/
def oLI (d : SReg) (i : Imm16) : BitVec 21 := eR d ++ i.lo
/-- M operand bits of a scalar access. -/
def oM (o : MArgs) : BitVec 21 := eR o.d ++ eR o.base ++ encAm o.am ++ eB o.x ++ (0 : BitVec 2) ++ o.off.lo
/-- M operand bits of LDA and STL. -/
def oMSc (o : ScArgs) : BitVec 21 := eR o.d ++ eR o.base ++ encAm o.am ++ encScope o.sc ++ o.off.lo
/-- M operand bits of VLD and VST. -/
def oMV (o : VMArgs) : BitVec 21 :=
  (0 : BitVec 1) ++ eV o.v ++ eR o.base ++ encAm o.am ++ eB o.x ++ (0 : BitVec 2) ++ o.off.lo
/-- M operand bits of GLD and GST. -/
def oMG (o : GMArgs) : BitVec 21 :=
  (0 : BitVec 3) ++ eQ o.q ++ eR o.base ++ encAm o.am ++ eB o.x ++ (0 : BitVec 2) ++ o.off.lo
/-- RRR operand bits of VLDS and VSTS. -/
def oStride (o : StrideArgs) : BitVec 21 :=
  (0 : BitVec 1) ++ eV o.v ++ eR o.a ++ eR o.b ++ encTy o.ty ++ eB o.x ++ encAm o.am
/-- O operand bits. -/
def oO (o : OArgs) : BitVec 21 := eR o.d ++ eR o.a ++ eR o.b ++ encOvr o.ovr ++ eB o.cmb ++ eB o.ret ++ eB o.nw
/-- O operand bits of an untyped atomic. -/
def oAt (o : AArgs) : BitVec 21 := eR o.d ++ eR o.a ++ eR o.b ++ (0 : BitVec 2) ++ eB o.w32 ++ (0 : BitVec 3)
/-- RRR operand bits of a bank command. -/
def oB (o : BArgs) : BitVec 21 := eR o.d ++ eR o.a ++ eR o.b ++ o.sub ++ eB o.bf16 ++ eB o.x ++ encAm o.am
/-- E operand bits. -/
def oE (d : SReg) (a : EReg) : BitVec 21 := eR d ++ eR a.first ++ (0 : BitVec 11)
/-- V operand bits. -/
def oV (o : VArgs) : BitVec 21 := eV o.vd ++ eV o.va ++ eV o.vb ++ encTy o.ty ++ eQ o.m ++ o.fn
/-- V operand bits, scalar layout. -/
def oVS (o : VSArgs) : BitVec 21 := eV o.v ++ eR o.s ++ (0 : BitVec 3) ++ encTy o.ty ++ eQ o.m ++ o.fn
/-- V operand bits, scalar layout with a lane. -/
def oVL (o : VLArgs) : BitVec 21 := eV o.v ++ eR o.s ++ (0 : BitVec 3) ++ encTy o.ty ++ o.lane
/-- V operand bits of VCMP. -/
def oVC (o : VCArgs) : BitVec 21 := (0 : BitVec 2) ++ eQ o.md ++ eV o.va ++ eV o.vb ++ encTy o.ty ++ eQ o.m ++ o.fn
/-- V operand bits of MOP. -/
def oMop (o : MopArgs) : BitVec 21 :=
  (0 : BitVec 2) ++ eQ o.md ++ (0 : BitVec 2) ++ eQ o.ma ++ (0 : BitVec 2) ++ eQ o.mb ++ encTy o.ty ++ (0 : BitVec 2) ++ o.fn
/-- G operand bits. -/
def oG (gd ga gb : QReg) (s : SReg) (fn : BitVec 10) : BitVec 21 := eQ gd ++ eQ ga ++ eQ gb ++ eR s ++ fn
/-- L1INV operand bits (R264). -/
def oL1 (dat ins : Bool) : L1Form → BitVec 21
  | .whole _ => (0 : BitVec 3) ++ eB ins ++ eB dat ++ (0 : BitVec 16)
  | .line base off => (0 : BitVec 2) ++ eB true ++ eB ins ++ eB dat ++ eR base ++ (0 : BitVec 5) ++ off.lo

/-- SIDE, opcode, operand bits and extension of an encoded instruction; `none` for a step without encoding. -/
structure Enc where
  side : Bool
  op   : BitVec 7
  f    : BitVec 21
  ext  : Option (BitVec 30)
  deriving DecidableEq, Repr

/-- The zero extension word of FENCE and of the whole form of L1INV. -/
def zeroExt (b : Bool) : Option (BitVec 30) := if b then some 0 else none

/-- The encoding of an instruction (R19 to R28); `none` for the steps without encoding. -/
def encInstr : Instr → Option Enc
  | .nopc => some ⟨false, 0x00, 0, none⟩
  | .beq a b i => some ⟨false, 0x01, oRI a b i, i.ext⟩
  | .bne a b i => some ⟨false, 0x02, oRI a b i, i.ext⟩
  | .blt a b i => some ⟨false, 0x03, oRI a b i, i.ext⟩
  | .bge a b i => some ⟨false, 0x04, oRI a b i, i.ext⟩
  | .bltu a b i => some ⟨false, 0x05, oRI a b i, i.ext⟩
  | .bgeu a b i => some ⟨false, 0x06, oRI a b i, i.ext⟩
  | .loop a b i => some ⟨false, 0x07, oRI a b i, i.ext⟩
  | .jmp f => some ⟨false, 0x08, f, none⟩
  | .call f => some ⟨false, 0x09, f, none⟩
  | .jr a i => some ⟨false, 0x0A, oRI 0 a i, i.ext⟩
  | .callr a i => some ⟨false, 0x0B, oRI 0 a i, i.ext⟩
  | .ldb o => some ⟨false, 0x10, oM o, o.off.ext⟩
  | .ldbu o => some ⟨false, 0x11, oM o, o.off.ext⟩
  | .ldh o => some ⟨false, 0x12, oM o, o.off.ext⟩
  | .ldhu o => some ⟨false, 0x13, oM o, o.off.ext⟩
  | .ldw o => some ⟨false, 0x14, oM o, o.off.ext⟩
  | .ldwu o => some ⟨false, 0x15, oM o, o.off.ext⟩
  | .ldd o => some ⟨false, 0x16, oM o, o.off.ext⟩
  | .lda o => some ⟨false, 0x17, oMSc o, o.off.ext⟩
  | .stb o => some ⟨false, 0x18, oM o, o.off.ext⟩
  | .sth o => some ⟨false, 0x19, oM o, o.off.ext⟩
  | .stw o => some ⟨false, 0x1A, oM o, o.off.ext⟩
  | .std o => some ⟨false, 0x1B, oM o, o.off.ext⟩
  | .stl o => some ⟨false, 0x1C, oMSc o, o.off.ext⟩
  | .fence sc z => some ⟨false, 0x1D, (0 : BitVec 12) ++ encScope sc ++ (0 : BitVec 6), zeroExt z⟩
  | .l1inv d i fm => some ⟨false, 0x1E, oL1 d i fm, match fm with | .whole z => zeroExt z | .line _ o => o.ext⟩
  | .vld o => some ⟨false, 0x20, oMV o, o.off.ext⟩
  | .vst o => some ⟨false, 0x21, oMV o, o.off.ext⟩
  | .vlds o => some ⟨false, 0x22, oStride o, none⟩
  | .vsts o => some ⟨false, 0x23, oStride o, none⟩
  | .gld o => some ⟨false, 0x24, oMG o, o.off.ext⟩
  | .gst o => some ⟨false, 0x25, oMG o, o.off.ext⟩
  | .oinit o => some ⟨false, 0x28, oO o, none⟩
  | .ofree o => some ⟨false, 0x29, oO o, none⟩
  | .oread o => some ⟨false, 0x2A, oO o, none⟩
  | .cadd o => some ⟨false, 0x2B, oO o, none⟩
  | .cwait o => some ⟨false, 0x2C, oO o, none⟩
  | .cset o => some ⟨false, 0x2D, oO o, none⟩
  | .barr o => some ⟨false, 0x2E, oO o, none⟩
  | .bwait o => some ⟨false, 0x2F, oO o, none⟩
  | .barw o => some ⟨false, 0x30, oO o, none⟩
  | .ltake o => some ⟨false, 0x31, oO o, none⟩
  | .lgive o => some ⟨false, 0x32, oO o, none⟩
  | .qput o => some ⟨false, 0x33, oO o, none⟩
  | .qget o => some ⟨false, 0x34, oO o, none⟩
  | .kwait o => some ⟨false, 0x35, oO o, none⟩
  | .ksig o => some ⟨false, 0x36, oO o, none⟩
  | .kall o => some ⟨false, 0x37, oO o, none⟩
  | .feget o => some ⟨false, 0x38, oO o, none⟩
  | .feput o => some ⟨false, 0x39, oO o, none⟩
  | .fepeek o => some ⟨false, 0x3A, oO o, none⟩
  | .aadd o => some ⟨false, 0x40, oAt o, none⟩
  | .aswap o => some ⟨false, 0x41, oAt o, none⟩
  | .acas o => some ⟨false, 0x42, oAt o, none⟩
  | .amax o => some ⟨false, 0x43, oAt o, none⟩
  | .amin o => some ⟨false, 0x44, oAt o, none⟩
  | .aand o => some ⟨false, 0x45, oAt o, none⟩
  | .aor o => some ⟨false, 0x46, oAt o, none⟩
  | .axor o => some ⟨false, 0x47, oAt o, none⟩
  | .bkadd o => some ⟨false, 0x48, oB o, none⟩
  | .bkmax o => some ⟨false, 0x49, oB o, none⟩
  | .bkscl o => some ⟨false, 0x4A, oB o, none⟩
  | .bkfma o => some ⟨false, 0x4B, oB o, none⟩
  | .bksmx o => some ⟨false, 0x4C, oB o, none⟩
  | .bkcvt o => some ⟨false, 0x4D, oB o, none⟩
  | .bkfill o => some ⟨false, 0x4E, oB o, none⟩
  | .bkred o => some ⟨false, 0x4F, oB o, none⟩
  | .mxc d a => some ⟨false, 0x50, oE d a, none⟩
  | .cpc d a => some ⟨false, 0x51, oE d a, none⟩
  | .estat d cp clr => some ⟨false, 0x52, oRRR d 0 0 ((0 : BitVec 4) ++ eB clr ++ eB cp), none⟩
  | .spawn d a b => some ⟨false, 0x58, oRRR d a b 0, none⟩
  | .fork d a b => some ⟨false, 0x59, oRRR d a b 0, none⟩
  | .quit => some ⟨false, 0x5A, 0, none⟩
  | .yield => some ⟨false, 0x5B, 0, none⟩
  | .send d a b o nw => some ⟨false, 0x5C, oRRR d a b ((0 : BitVec 2) ++ encOvr o ++ eB nw), none⟩
  | .recv d a tag nw => some ⟨false, 0x5D, oRRR d a 0 ((0 : BitVec 4) ++ eB tag ++ eB nw), none⟩
  | .arrMatch d a b wake => some ⟨false, 0x5E, oRRR d a b ((0 : BitVec 5) ++ eB wake), none⟩
  | .waitt d a b => some ⟨false, 0x5F, oRRR d a b 0, none⟩
  | .mfc d n => some ⟨false, 0x70, eR d ++ (0 : BitVec 4) ++ n, none⟩
  | .mtc n a => some ⟨false, 0x71, eR a ++ (0 : BitVec 4) ++ n, none⟩
  | .trap i => some ⟨false, 0x72, oLI 0 i, i.ext⟩
  | .rft skip => some ⟨false, 0x73, oRRR 0 0 0 ((0 : BitVec 5) ++ eB skip), none⟩
  | .kill d a dom nw => some ⟨false, 0x74, oRRR d a 0 ((0 : BitVec 4) ++ eB dom ++ eB nw), none⟩
  | .halt => some ⟨false, 0x75, 0, none⟩
  | .plbw d a b => some ⟨false, 0x76, oRRR d a b 0, none⟩
  | .nopa => some ⟨true, 0x00, 0, none⟩
  | .add w d a b => some ⟨true, 0x01, oRRR d a b ((0 : BitVec 5) ++ eB w), none⟩
  | .sub w d a b => some ⟨true, 0x02, oRRR d a b ((0 : BitVec 5) ++ eB w), none⟩
  | .and d a b => some ⟨true, 0x03, oRRR d a b 0, none⟩
  | .or d a b => some ⟨true, 0x04, oRRR d a b 0, none⟩
  | .xor d a b => some ⟨true, 0x05, oRRR d a b 0, none⟩
  | .andn d a b => some ⟨true, 0x06, oRRR d a b 0, none⟩
  | .shl d a b => some ⟨true, 0x07, oRRR d a b 0, none⟩
  | .shr d a b => some ⟨true, 0x08, oRRR d a b 0, none⟩
  | .sra d a b => some ⟨true, 0x09, oRRR d a b 0, none⟩
  | .mul w d a b => some ⟨true, 0x0A, oRRR d a b ((0 : BitVec 5) ++ eB w), none⟩
  | .mulh d a b => some ⟨true, 0x0B, oRRR d a b 0, none⟩
  | .mulhu d a b => some ⟨true, 0x0C, oRRR d a b 0, none⟩
  | .div w d a b => some ⟨true, 0x0D, oRRR d a b ((0 : BitVec 5) ++ eB w), none⟩
  | .divu w d a b => some ⟨true, 0x0E, oRRR d a b ((0 : BitVec 5) ++ eB w), none⟩
  | .rem w d a b => some ⟨true, 0x0F, oRRR d a b ((0 : BitVec 5) ++ eB w), none⟩
  | .remu w d a b => some ⟨true, 0x10, oRRR d a b ((0 : BitVec 5) ++ eB w), none⟩
  | .min d a b => some ⟨true, 0x11, oRRR d a b 0, none⟩
  | .max d a b => some ⟨true, 0x12, oRRR d a b 0, none⟩
  | .minu d a b => some ⟨true, 0x13, oRRR d a b 0, none⟩
  | .maxu d a b => some ⟨true, 0x14, oRRR d a b 0, none⟩
  | .cmpeq d a b => some ⟨true, 0x15, oRRR d a b 0, none⟩
  | .cmpne d a b => some ⟨true, 0x16, oRRR d a b 0, none⟩
  | .cmplt d a b => some ⟨true, 0x17, oRRR d a b 0, none⟩
  | .cmpltu d a b => some ⟨true, 0x18, oRRR d a b 0, none⟩
  | .cmple d a b => some ⟨true, 0x19, oRRR d a b 0, none⟩
  | .cmpleu d a b => some ⟨true, 0x1A, oRRR d a b 0, none⟩
  | .sel d a b c => some ⟨true, 0x1B, oRRR d a b ((0 : BitVec 1) ++ eR c), none⟩
  | .clz d a => some ⟨true, 0x1C, oRRR d a 0 0, none⟩
  | .ctz d a => some ⟨true, 0x1D, oRRR d a 0 0, none⟩
  | .popc d a => some ⟨true, 0x1E, oRRR d a 0 0, none⟩
  | .bfx d a b sg => some ⟨true, 0x1F, oRRR d a b ((0 : BitVec 5) ++ eB sg), none⟩
  | .bfi d a b => some ⟨true, 0x20, oRRR d a b 0, none⟩
  | .addi d a i => some ⟨true, 0x21, oRI d a i, i.ext⟩
  | .andi d a i => some ⟨true, 0x22, oRI d a i, i.ext⟩
  | .ori d a i => some ⟨true, 0x23, oRI d a i, i.ext⟩
  | .xori d a i => some ⟨true, 0x24, oRI d a i, i.ext⟩
  | .shli d a i => some ⟨true, 0x25, oRI d a i, i.ext⟩
  | .shri d a i => some ⟨true, 0x26, oRI d a i, i.ext⟩
  | .srai d a i => some ⟨true, 0x27, oRI d a i, i.ext⟩
  | .cmpeqi d a i => some ⟨true, 0x28, oRI d a i, i.ext⟩
  | .cmplti d a i => some ⟨true, 0x29, oRI d a i, i.ext⟩
  | .li d i => some ⟨true, 0x2A, oLI d i, i.ext⟩
  | .lui d i => some ⟨true, 0x2B, oLI d i, i.ext⟩
  | .fadd d a b => some ⟨true, 0x30, oRRR d a b 0, none⟩
  | .fsub d a b => some ⟨true, 0x31, oRRR d a b 0, none⟩
  | .fmul d a b => some ⟨true, 0x32, oRRR d a b 0, none⟩
  | .ffma d a b c => some ⟨true, 0x33, oRRR d a b ((0 : BitVec 1) ++ eR c), none⟩
  | .fmin d a b => some ⟨true, 0x34, oRRR d a b 0, none⟩
  | .fmax d a b => some ⟨true, 0x35, oRRR d a b 0, none⟩
  | .fdiv d a b => some ⟨true, 0x36, oRRR d a b 0, none⟩
  | .fsqrt d a => some ⟨true, 0x37, oRRR d a 0 0, none⟩
  | .fcmp d a b p => some ⟨true, 0x38, oRRR d a b ((0 : BitVec 3) ++ p), none⟩
  | .fcvt d a k rm sat => some ⟨true, 0x39, oRRR d a 0 (eB sat ++ encRnd rm ++ k), none⟩
  | .fclass d a => some ⟨true, 0x3A, oRRR d a 0 0, none⟩
  | .vadd o => some ⟨true, 0x40, oV o, none⟩
  | .vsub o => some ⟨true, 0x41, oV o, none⟩
  | .vmul o => some ⟨true, 0x42, oV o, none⟩
  | .vfma o => some ⟨true, 0x43, oV o, none⟩
  | .vmin o => some ⟨true, 0x44, oV o, none⟩
  | .vmax o => some ⟨true, 0x45, oV o, none⟩
  | .vabs o => some ⟨true, 0x46, oV o, none⟩
  | .vand o => some ⟨true, 0x47, oV o, none⟩
  | .vor o => some ⟨true, 0x48, oV o, none⟩
  | .vxor o => some ⟨true, 0x49, oV o, none⟩
  | .vshl o => some ⟨true, 0x4A, oV o, none⟩
  | .vshr o => some ⟨true, 0x4B, oV o, none⟩
  | .vcmp o => some ⟨true, 0x4C, oVC o, none⟩
  | .vsel o => some ⟨true, 0x4D, oV o, none⟩
  | .vbcast o => some ⟨true, 0x4E, oVS o, none⟩
  | .vins o => some ⟨true, 0x4F, oVL o, none⟩
  | .vext o => some ⟨true, 0x50, oVL o, none⟩
  | .vredadd o => some ⟨true, 0x51, oVS o, none⟩
  | .vredmax o => some ⟨true, 0x52, oVS o, none⟩
  | .vperm o => some ⟨true, 0x53, oV o, none⟩
  | .vcvt o => some ⟨true, 0x54, oV o, none⟩
  | .vexp2 o => some ⟨true, 0x55, oV o, none⟩
  | .vrcp o => some ⟨true, 0x56, oV o, none⟩
  | .vdot4 o => some ⟨true, 0x57, oV o, none⟩
  | .vaddsub o => some ⟨true, 0x58, oV o, none⟩
  | .mop o => some ⟨true, 0x59, oMop o, none⟩
  | .unpk3 o => some ⟨true, 0x5C, oV o, none⟩
  | .unpk4 o => some ⟨true, 0x5D, oV o, none⟩
  | .unpki3 o => some ⟨true, 0x5E, oV o, none⟩
  | .gadd gd ga gb sub => some ⟨true, 0x60, oG gd ga gb 0 ((0 : BitVec 9) ++ eB sub), none⟩
  | .gext gd ga gb => some ⟨true, 0x61, oG gd ga gb 0 0, none⟩
  | .gelim gd ga keep => some ⟨true, 0x62, oG gd ga 0 0 ((0 : BitVec 3) ++ keep), none⟩
  | .gdamp gd ga gb => some ⟨true, 0x63, oG gd ga gb 0 0, none⟩
  | .gres s ga gb => some ⟨true, 0x64, oG 0 ga gb s 0, none⟩
  | .gmean gd ga => some ⟨true, 0x65, oG gd ga 0 0 0, none⟩
  | _ => none

/-- The word of an encoding in a class, with a marker (R8). -/
def Enc.word (c : Enc) (cls : BitVec 2) (mark : Bool) : Code := cls ++ eB mark ++ eB c.side ++ c.op ++ c.f

/-- An extension word (class 0b11). -/
def extWord (x : BitVec 30) : Code := (3 : BitVec 2) ++ x

/-- The words of a bundle: a lone word with its extension, or a head and tail followed by theirs (R11, R13); `none` for a
step without encoding, and for a tail that is extended while its head is not. -/
def encodeBundle (b : Bundle) : Option (List Code) :=
  match encInstr b.op with
  | none => none
  | some h =>
    match b.tail with
    | none => some (h.word 1 b.marker :: (h.ext.map extWord).toList)
    | some t =>
      match encInstr t with
      | none => none
      | some c =>
        if h.side || !c.side || (h.ext.isNone && c.ext.isSome) then none
        else some (h.word 0 b.marker :: c.word 2 false :: ((h.ext.map extWord).toList ++ (c.ext.map extWord).toList))

/-- The words of an instruction as a lone word without the marker. -/
def encode (i : Instr) : Option (List Code) := encodeBundle ⟨false, i, none⟩

end Sys2Proof
end

