-- ==== Sys2Proof/Config.lean ====
section
/-!
DEFINITION. What one module fixes, and the free values: constants without a body, of which nothing can be proved
(notes/assumptions/4.md, 6.md).
-/
namespace Sys2Proof.Config

/-- Free values of timing: the n-th draw within a tabled range (R251, R126, R177, R347), and the path of a relaxed
access (R245). -/
opaque freeLatency : Nat → Nat

/-- Free values the spec does not state: the n-th draw. -/
opaque freeValue : Nat → Nat

/-- SHA-384 of a byte string, as a number (R433, R452, R454). -/
opaque sha384 : List Byte → Nat

/-- The signature under device key k (0 RSA-3072, 1 SLH-DSA-SHA2-192s) of a digest (R452 to R454). -/
opaque sign : Nat → Nat → Nat

/-- Whether both signatures of the firmware image the boot flash holds for a die verify (R452). -/
opaque bootVerifies : Nat → Bool

/-- The header version of the firmware image the boot flash holds for a die (R453). -/
opaque bootVersion : Nat → Nat

/-- Where in its partition's area of the saggar an item lies: its unit (R70). -/
opaque saggarUnit : Nat → Nat

/-- The version of the Assay firmware (R433). -/
opaque assayVersion : Nat

/-- The SHA-384 digests of the ROM (0), the service firmware (1) and the Assay firmware (2) (R454). -/
opaque firmwareDigest : Nat → Nat

/-- The place of an area within its page of the census (R444), which gives areas but no offsets. -/
opaque censusPlace : Nat → Nat

/-- The module's own pod number (R60). This model is of a pod of one module (notes/assumptions/7.md). -/
def moduleNumber : Nat := 0

/-- Architectural cores of the module. -/
def cores : Nat := 1024

/-- Slots of a core (R1). -/
def slots : Nat := 16

/-- Slices of a die (R1). -/
def slices : Nat := 160

/-- Frame slots of a channel (R70). -/
def frameSlots : Nat := 7672

/-- Line slots of a frame in one channel (R67). -/
def lineSlots : Nat := 820

/-- Context numbers of a core (R150). -/
def contexts : Nat := 4096

end Sys2Proof.Config
end

