-- ==== Sys2Proof/Machine/State.lean ====
section
/-!
DEFINITION. The state of the module as plain data: everything the spec gives the machine, and the model's own bookkeeping
(cycle, agenda, the bundle in issue, the counters of free values and names). INVENTORY.md lists each piece with its rule.
-/
namespace Sys2Proof.Machine

/-- A sparse table: rising keys, no entry equal to the default its users read for an unlisted key. -/
abbrev Map (α : Type) := List (Nat × α)

/-- Context states (R147). -/
inductive CtxState where
  | free | ready | running | parked | cached | spilled | swapped
  deriving DecidableEq, Repr

/-- What a parked or displaced context waits for; its wait reason follows (R374). -/
inductive Wait where
  | none
  | regs                        -- no register pending (1)
  | handler                     -- the handler's first bundle: registers returned (1)
  | restore                     -- twin restore, replay or repair (1)
  | comparator                  -- twin: the leader's held action (2)
  | access (acc : Nat)          -- a parking store's acknowledgement (2)
  | issue                       -- its turn to issue a memory instruction (R192, R193; 2)
  | accepted                    -- its relaxed accesses are accepted (2)
  | probes                      -- its probe echoes (2)
  | answer                      -- a SEND's or SPAWN's answer (2)
  | kills (gids : List Nat)     -- the kill records of a KILL (2)
  | drain                       -- QUIT's drain (2)
  | object (req : Nat) (registered : Bool)  -- an object reply or grant (3)
  | recv                        -- a message (4)
  | mxq                         -- a matrix queue entry (5)
  | cpq                         -- a copy queue entry (6)
  | waitt (deadline : Word)     -- a deadline (8)
  | fetchFill                   -- instruction sectors (9)
  | lease                       -- hand-over or move (10)
  | pageMove                    -- a line of a leased channel (11)
  | halted (byPartition : Bool) -- HALT, partition halt (12)
  | swappedOut                  -- partition swapped (13)
  | escalation                  -- trap-log record (14)
  deriving DecidableEq, Repr

/-- A register write: the value is taken at the register's width. -/
structure RegWrite where
  reg : RegName
  val : Nat
  deriving DecidableEq, Repr

/-- What a bundle half does to registers: turn-class writes, and long ones with their latency (R186). -/
structure Effect where
  now   : List RegWrite
  later : List (Nat × RegWrite)
  deriving DecidableEq, Repr

/-- A pending register (R186, R187): a result that returns at a cycle, or an access's data. -/
inductive PendSrc where
  | result (due : Nat) (val : Nat)
  | load (acc : Nat)
  deriving DecidableEq, Repr

/-- One pending register. -/
structure Pend where
  reg : RegName
  src : PendSrc
  deriving DecidableEq, Repr

/-- One entry of the replay queue (R412): the bundle with its address and its number in a pair, every register it read as it read it,
the registers it writes, and the results, those of a load once they have returned. -/
structure ReplayEntry where
  pc     : Word
  no     : Nat
  bun    : Bundle
  reads  : List RegWrite
  dests  : List RegName
  writes : List RegWrite
  deriving DecidableEq, Repr

/-- A transfer of control (R184): its target, what it writes, and its entry of the replay queue. -/
structure Transfer where
  target : Word
  eff    : Effect
  byReg  : Bool                   -- JR, CALLR, RFT: bits [1:0] are checked
  rft    : Bool
  entry  : ReplayEntry
  deriving DecidableEq, Repr

/-- A cached sector of 64 bytes, tagged by its global address (R180, R243, R249). -/
structure Sector where
  addr : Nat
  data : BitVec 512
  deriving DecidableEq, Repr

/-- A recorded cause that waits behind the first one (R190): with the access or the failing address behind it. -/
structure Recorded where
  cause : BitVec 8
  tval  : Word
  rid   : Nat
  addr  : Word
  deriving DecidableEq, Repr

/-- An object request (R94, R99, R111). -/
structure ObjReq where
  id      : Nat
  op      : Nat
  addr    : Word
  operand : Word
  expect  : Word
  ret     : Bool
  nw      : Bool
  cmb     : Bool
  w32     : Bool
  scope   : Scope
  ctxid   : Nat
  gen     : BitVec 12
  eng     : Nat
  lane    : Nat
  rights  : Nat                   -- R, W at s_b (bits 0, 1) and at s_b + 255 (bits 2, 3) (R114)
  dom     : BitVec 16
  domGen  : BitVec 8
  packet  : Nat
  vf      : Nat
  window  : Option WindowReq
  parts   : List (Nat × Word)     -- ids and operands of the requests combined in it (R109)
  deriving DecidableEq, Repr

/-- A bank command accepted by a bank (R284, R285). -/
structure BankCmd where
  acc    : Nat
  op     : Nat
  bf16   : Bool
  sub    : Nat
  dst    : Nat
  src    : Nat
  rows   : Nat
  c      : BitVec 32
  row    : Nat
  rnd    : Rnd
  sat    : Bool
  xs     : List Nat               -- BKSMX: the inputs read so far, latest first
  deriving DecidableEq, Repr

/-- Where one request of an access goes: a row of a bank; a sector of a die's virtual space, at a slice of this module; a
copy found at issue (L1 or remote-data cache); another module; the census and control window; the host. -/
inductive Target where
  | bank (core bank row : Nat)
  | slice (slice sector : Nat)
  | cached
  | away (module : Nat)
  | census (die : Nat)
  | host
  deriving DecidableEq, Repr

/-- Stages of a part. -/
inductive Stage where
  | sent | accepted | taken | served
  deriving DecidableEq, Repr

/-- One request of an access (R241, R260): its first address, the bytes it carries (each where it lies: byte of the local
memory, offset in the die's space, or address; and its place in the access's data), its data as sent or as read, the
uncontended time and the cycles at which it left and was done. -/
structure Part where
  tgt   : Target
  addr  : Word
  bytes : List (Nat × Nat)
  data  : List Byte
  places : List Nat               -- where its bytes stand, once its target has found them
  stage : Stage
  lat   : Nat
  left  : Nat
  done  : Nat
  fill  : Option (BitVec 512 × Bool)  -- the whole sector for L1, and whether a remote-data cache takes it (R244, R249)
  deriving DecidableEq, Repr

/-- What an access is. -/
inductive AccKind where
  | load (bytes : Nat) (signed : Bool)
  | lda (sc : Scope)
  | vector                        -- VLD, VLDS, GLD: whole vectors
  | store
  | bankCmd
  deriving DecidableEq, Repr

/-- A memory access in flight (R191 to R193). -/
structure Access where
  id      : Nat
  seq     : Nat                   -- its place among its core's on the hashed path: from its issue, or its release by a comparator (R245, R306)
  gid     : Nat
  gen     : BitVec 12
  core    : Nat
  pc      : Word
  kind    : AccKind
  relaxed : Bool
  dests   : List RegName
  size    : Nat                   -- bytes of the access
  parts   : List Part
  addr    : Word
  domain  : BitVec 16
  domGen  : BitVec 8
  prv     : Bool
  parks   : Bool                  -- a store that parks for its acknowledgement (R83)
  epoch   : Nat                   -- the core's count of whole-cache invalidations when it left (R244)
  noFill  : List Nat              -- lines invalidated since it left (R264)
  noRdc   : List (Nat × Nat)      -- ranges removed from the remote-data cache since it left (R250)
  fault   : Option (Nat × Word)   -- cause and TVAL found at the target: of several requests, the lowest in the access's data
  faultAt : Nat                   -- that request's first byte in the access's data (R260)
  allOnes : Bool                  -- the host answered with an error status (R137)
  bcmd    : Option BankCmd
  entry   : Bool                  -- still holds its relaxed entries (R193)
  extra   : Nat                   -- cycles beyond the slowest request (R260, R392)
  touch   : Word                  -- the TOUCH bits of its targets (R254)
  due     : Nat
  deriving DecidableEq, Repr

/-- A task record t0 to t7 (R165). -/
structure TaskRec where
  pc     : BitVec 57
  prio   : BitVec 2
  pre    : Bool
  size   : BitVec 4
  args   : Vector Word 4
  join   : BitVec 57
  tscale : BitVec 57
  tfmt   : BitVec 32
  domain : BitVec 16
  packet : Nat
  twin   : Bool
  forker : Nat                    -- the core that forked it, whose block is its stealing domain (R156)
  deriving DecidableEq, Repr

/-- A matrix command as accepted (R309, R320): its words with formats resolved, and what was captured. -/
structure MxCmd where
  seq    : BitVec 32
  core   : Nat
  words  : List Word
  af     : Nat
  bf     : Nat
  of_    : Nat
  rnd    : Rnd
  sat    : Bool
  sb     : Word
  vbytes : List Byte
  gid    : Nat
  gen    : BitVec 12
  domain : BitVec 16
  domGen : BitVec 8
  prv    : Bool
  failed : Bool                   -- removed after a fault (R323): it keeps its entry until its MXERR is accepted (R341)
  deriving DecidableEq, Repr

/-- A copy command as accepted (R273, R282). -/
structure CpCmd where
  seq    : BitVec 32
  words  : List Word
  sfmt   : Nat
  dfmt   : Nat
  rnd    : Rnd
  sat    : Bool
  gid    : Nat
  gen    : BitVec 12
  core   : Nat
  domain : BitVec 16
  domGen : BitVec 8
  prv    : Bool
  unit   : Nat                    -- index of the next unit (R271), and where it begins: its row and its byte of the row
  row    : Nat
  off    : Nat
  badTern : Nat
  index  : Option Nat             -- the entry of the index list for its row, as the engine read it (R275)
  queued : Nat                    -- the cycle at which it was queued (R290)
  failed : Bool                   -- removed after a fault (R280): it keeps its entry until its CPERR is accepted (R341)
  deriving DecidableEq, Repr

/-- What a context sends once its release's probes are back (R96, R172, R173, R262, R282, R303), or what else the comparator holds for the
leader of a pair (R196, R413): a KILL's operand and flags, a HALT, a QUIT. -/
inductive Held where
  | object (req : ObjReq)
  | store (acc : Access)
  | fence (sc : Scope)
  | spawn (core : Nat) (index : BitVec 32) (pc : Word) (d : SReg)
  | fork (t : TaskRec) (d : SReg)
  | send (dest : Nat) (w0 w2 w3 : Word) (nw : Bool)
  | copy (cmd : CpCmd) (d : SReg)
  | matrix (cmd : MxCmd) (d : SReg)
  | kill (dom : Bool) (x : Word) (d : SReg) (nw : Bool)
  | halt
  | quit
  deriving DecidableEq, Repr

/-- A trap on its way to its handler (R366, R367): the cause, its TVAL, the address TRAPPC receives, whether it was
recorded or asynchronous, and the cycle of the trap. -/
structure TrapReq where
  cause : Nat
  tval  : Word
  pc    : Word
  late  : Bool
  at_   : Nat
  deriving DecidableEq, Repr

/-- What a slot's fetch found (R181, R183): the words from the PC, or the cause that the fetch raises. -/
inductive Fetched where
  | words (ws : List Code)
  | failed (cause : Nat) (tval : Word)
  deriving DecidableEq, Repr

/-- The kill sequence of a context (R381, R382). -/
structure KillInfo where
  cause   : Nat
  tval    : Word
  pc      : Word
  killer  : Nat
  engcmds : Nat
  waits   : Nat
  msgs    : Nat
  oldGen  : Nat
  deriving DecidableEq, Repr

/-- What the leader passes to the trailer (R195, R196, R414, R417, R418): loaded data with its address, a load whose data is still
out with the values it will count, a bundle's results (none: a completion), or a cause that it took. -/
inductive QueueKind where
  | load (addr : Word) (ws : List RegWrite)
  | waiting (acc : Nat) (addr : Word) (values : Nat)
  | results (ws : List RegWrite)
  | cause (cause : Nat) (tval : Word) (late : Bool)
  deriving DecidableEq, Repr

/-- An entry of the load-value queue, with the number of its bundle. -/
structure QueueVal where
  bundle : Nat
  kind   : QueueKind
  deriving DecidableEq, Repr

/-- What a checkpoint holds of a context: its image (R161, R413). -/
structure Checkpoint where
  s  : Vector Word 32
  v  : Vector Vec 16
  m  : Vector Word 4
  pc : Word
  ctl : List Word
  recs : List Recorded            -- RCAUSE and RTVAL, with the causes recorded behind the first
  touch : Word
  wcount : BitVec 32
  deriving DecidableEq, Repr

/-- A compare point that the leader has issued and the comparator has not released yet (R196, R413, R414): its bundle's number, the
bundle and its operands, the name of the access of a store or bank command (none: the context parks, and holds the action), and the
leader's image after the bundle with the number of the next one, once that begins. -/
structure HeldPoint where
  bundle : Nat
  bun    : Bundle
  sig    : List Nat
  acc    : Option Nat
  image  : Option (Checkpoint × Nat)
  deriving DecidableEq, Repr

/-- The twin part of a context (R195, R413 to R418). The queue stands in the leader's record, oldest entry first; the
first `taken` of its entries have been consumed by the trailer and are retained until the next compare point. -/
structure TwinInfo where
  leader     : Bool
  partner    : Nat
  queue      : List QueueVal
  taken      : Nat
  replaying  : Nat                -- retained entries that a replaying leader still takes (R415)
  issued     : Nat                -- bundles issued
  issuedAt   : Nat                -- cycle of the last issue
  base       : Nat                -- bundles issued at the checkpoint
  checkpoint : Checkpoint
  snapDue    : Bool               -- the next bundle takes a new checkpoint first (R414)
  mismatches : List Nat           -- bundles that mismatched since the last release (R415)
  holding    : Bool               -- the trailer waits for the release of its compare point
  released   : Bool               -- the comparator has released it
  heldBun    : Option Bundle      -- the trailer's bundle that is compared,
  sig        : List Nat           -- and its operands
  points     : List HeldPoint     -- the leader's compare points that are not released, oldest first
  deriving DecidableEq, Repr

/-- What a taken transfer of control replaced, until its target has been fetched in its slot's fetch cycle (R184): the transfer, the
cycle it issued in, and what stood before it. -/
structure Undo where
  xfer     : Transfer
  at_      : Nat
  pc       : Word
  old      : List RegWrite
  marker   : Bool
  prv      : Bool
  uh       : Bool
  sh       : Bool
  pprv     : Bool
  puh      : Bool
  wcount   : BitVec 32
  replay   : List ReplayEntry
  issuedAt : Nat                  -- of a pair: the cycle of the bundle before
  deriving DecidableEq, Repr

/-- A context (R147 to R151): its registers, control registers and what is in progress. -/
structure Ctx where
  st      : CtxState
  moved   : Option Nat            -- the core that a capacity move took it to (R425); it keeps its id
  slot    : Option Nat
  s       : Vector Word 32
  v       : Vector Vec 16
  m       : Vector Word 4
  pc      : Word
  domain  : BitVec 16
  prio    : BitVec 2
  tfmt    : BitVec 32
  tscale  : BitVec 57
  gtol    : BitVec 32
  touch   : Word
  wcount  : BitVec 32
  wlimit  : BitVec 32
  tquant  : BitVec 16
  trappc  : BitVec 57
  tcause  : BitVec 11
  tval    : Word
  tvecU   : BitVec 57
  tvecS   : BitVec 57
  tdeleg  : BitVec 32
  tsave   : Vector Word 4
  prv     : Bool
  uh      : Bool
  sh      : Bool
  pprv    : Bool
  puh     : Bool
  wake    : Bool
  eerr    : Bool
  pre     : Bool
  rcause  : BitVec 8
  rtval   : Word
  rid     : Nat                   -- the access and request behind a recorded TRANSLATION or OBJ_STORE (R78)
  raddr   : Word                  -- the failing address behind a recorded ENGINE_ERROR (R280, R382)
  rnext   : List Recorded         -- further recorded causes, each of its own kind
  gen     : BitVec 12
  twinned : Bool
  rbk     : BitVec 24
  moves   : BitVec 16
  -- in progress
  wait        : Wait
  phase       : Nat
  probes      : List Nat          -- targets whose echoes are awaited (R254)
  relMask     : Word              -- the bits that the release in progress covers
  pend        : List Pend
  relaxed     : Nat
  outstanding : Option Nat
  heldTail    : Option Effect
  transfer    : Option Transfer
  marker      : Bool
  latch       : Option Fetched
  undo        : Option Undo       -- a transfer that has issued, its target not yet fetched (R184)
  fills       : List Nat          -- instruction sectors awaited (R182)
  ufetch      : List Sector       -- instruction sectors of U pages, which no cache holds, for this fetch (R71)
  nofetch     : List Nat          -- instruction sectors that cannot be read, for RFT's count in progress (R373)
  vectoring   : Bool              -- the next fetch is checked as a transfer target (R367)
  trap        : Option TrapReq
  held        : Option Held
  heldPc      : Word              -- the bundle whose completion is awaited
  dest        : SReg              -- the register its result goes to
  inHand      : Option ReplayEntry  -- the parked bundle's entry of the replay queue, until it completes (R412)
  askAddr     : Word              -- the address of the object whose reply or grant it awaits (R376)
  resuming    : Bool              -- a PARK_RESUME is on the agenda
  killer      : Nat
  arrived     : Bool              -- what it awaited arrived while it was swapped out (R102)
  answer      : Option Nat
  readyAt     : Nat
  parkedAt    : Nat
  enteredAt   : Nat
  leaves      : Bool              -- its core pre-empts it: it leaves at its next turn that allows it (R163)
  async       : List Nat
  asyncTval   : Word
  fatalTval   : Word              -- TVAL of a fatal cause that awaits its turn
  domGen      : BitVec 8
  packet      : Option Nat        -- die · 4,096 + index
  join        : BitVec 57
  lastCore    : Nat
  replay      : List ReplayEntry
  twin        : Option TwinInfo
  kill        : Option KillInfo
  lastMx      : Option (BitVec 32)
  lastCp      : Option (BitVec 32)
  deriving DecidableEq, Repr

/-- An entry of a ready queue (R159). -/
structure ReadyEntry where
  gid   : Nat
  level : BitVec 2
  since : Nat
  rank  : Nat                     -- its place among those that enter in one cycle (R159)
  time  : Word
  deriving DecidableEq, Repr

/-- A slot of a core: its occupant or reservation, and the first cycle at which its next occupant may issue (R158, R164). -/
structure SlotUse where
  occ      : Option Nat
  reserved : Option Nat
  freeAt   : Nat
  deriving DecidableEq, Repr

/-- A message of 32 bytes with the context it is for (R337). -/
structure Message where
  dest : Nat
  seq : Nat
  w0  : Word
  w1  : Word
  w2  : Word
  w3  : Word
  deriving DecidableEq, Repr

/-- An arrival-match entry (R345). -/
structure MatchEntry where
  tag    : BitVec 32
  named  : Nat
  owner  : Nat
  length : Nat
  count  : Nat
  wake   : Bool
  deriving DecidableEq, Repr

/-- An instruction fill (R182): its sector, whether it has been sent, and what arrived (none of it: TRANSLATION, or poison, R411). -/
structure IFill where
  sector : Nat
  sent   : Bool
  drop   : Bool                   -- an invalidation took place since it left
  uncached : Bool                 -- its page is a U page, which no cache holds (R71)
  data   : Option (BitVec 512)
  poison : Bool
  deriving DecidableEq, Repr

/-- A bank: its queues and the frame in which the matrix class last took a grant (R240, R241, R284). -/
structure Bank where
  accQ    : List (Nat × Nat)      -- access, part
  cmdQ    : List BankCmd
  copyQ   : Nat                   -- rows waiting for the copy engine or shadow storage
  portQ   : Nat                   -- rows of other clusters' engines, held at their source by a full queue (R241, R269)
  mxQ     : Map Nat               -- row pairs waiting for the matrix units, by core (R240, R326)
  mxLast  : Nat                   -- the core whose unit it last served (R326)
  mxFrame : Option Nat
  nextAt  : Nat                   -- first cycle at which it may serve a grant (R240)
  deriving DecidableEq, Repr

/-- The running command of a matrix unit: its next group or row, a GMMA part's member and tile, the digest, what it waits
for. -/
structure MxRun where
  cmd     : MxCmd
  next    : Nat
  tile    : Nat
  member  : Nat
  part    : Bool
  digest  : Word
  waiting : Nat                   -- 0 running, 1 writes, 2 counter reply, 3 message, 4 digest compare, 5 not begun (sequencer), 6 OBJERR,
                                  -- 7 the message of an aborted command
  asked   : Nat                   -- cycle at which it asked for what its unit reads (R326),
  load    : Nat                   -- and the load time before that counts (R325)
  deriving DecidableEq, Repr

/-- A matrix unit (R307, R308, R330). -/
structure MatrixUnit where
  acc   : Map (BitVec 32)         -- cell a·4,096 + i·64 + j
  queue : List MxCmd
  seq   : BitVec 32
  run   : Option MxRun
  part  : Option MxRun
  halted : Bool
  fetched : Option (BitVec 32)    -- the queued command whose fetch began during the last tile of the one before it (R325)
  lastPair : Nat                  -- cycle at which it last took a row pair (R326)
  deriving DecidableEq, Repr

/-- A lane of a copy engine: the command it executes and what it waits for. -/
structure CpLane where
  cmd     : Option CpCmd
  waiting : Nat                   -- 0 units, 1 writes, 2 action reply, 3 message, 4 OBJERR, 5 the message of an aborted command
  deriving DecidableEq, Repr

/-- A thief's search (R166 to R168). -/
structure Thief where
  next    : Nat
  probing : Option Nat
  tried   : Nat
  wait    : Nat
  until_  : Option Nat
  deriving DecidableEq, Repr

/-- A core, by architectural number die·512 + cluster·8 + k. -/
structure Core where
  present   : Bool
  slots     : Map SlotUse
  plb       : Map Word
  svec      : BitVec 57
  gens      : Map (BitVec 12)
  ready     : List ReadyEntry
  deque     : List TaskRec        -- bottom first
  dequeAt   : Nat                 -- first cycle at which the deque's port is free (R167)
  popAt     : Option Nat          -- the cycle in which the port serves the owner's pop that waits for it (R167)
  fillAt    : Nat                 -- first cycle at which it may fill another slot (R158)
  acceptAt  : Nat                 -- first cycle at which it may accept another new context (R157)
  tcc       : List Nat            -- contexts with an image in the cache, least recently used first
  thief     : Thief
  relaxed   : Nat
  ifills    : List IFill
  l1i       : List Sector         -- least recently used first
  l1d       : List Sector
  l1was     : Option (Nat × Nat × List Sector)  -- an invalidation that no turn made: its cycle, its context, the cache before it (R265)
  epoch     : Nat                 -- whole-cache invalidations of the data cache so far (R244)
  banks     : Map Bank
  inbox     : List Message
  saggarMsgs : List Message
  arrivals  : Map MatchEntry
  mx        : MatrixUnit
  discarded : Nat
  dropped   : Nat
  leaseHold : Bool                -- parked for a hand-over or move (R423, R425)
  deriving DecidableEq, Repr

/-- A GMMA at its kiln's sequencer (R328). -/
structure GmmaJob where
  core   : Nat
  cmd    : MxCmd
  left   : Nat
  fault  : Option (Nat × Nat × Nat × Nat)   -- member, cause, unit, address
  deriving DecidableEq, Repr

/-- Swapped state of a partition's cluster in shadow storage (R380): its cores' records, its local memory with what of it is
poisoned, its engine, and its contexts. -/
structure Shadow where
  vf      : Nat
  cores   : List (Nat × Core)
  slab    : List Host.Cell
  poison  : List Nat
  cpQ     : List CpCmd
  lanes   : Map CpLane
  gmmaQ   : List GmmaJob
  gmmaRun : Option GmmaJob
  ctxs    : List Nat
  deriving DecidableEq, Repr

/-- The memory of an absent core, saved to its partition's saggar area by MOVE (R425): its local memory and its accumulators. -/
structure SavedCore where
  core : Nat
  vf   : Nat
  slab : List Host.Cell
  acc  : Map (BitVec 32)
  deriving DecidableEq, Repr

/-- A cluster, by die·64 + cluster. -/
structure Cluster where
  cpQueue      : List CpCmd
  lanes        : Map CpLane
  cpSeq        : BitVec 32
  rr           : Nat
  cpHalted     : Bool
  sparePresent : Bool
  sparePos     : Nat              -- position (0 to 8) that is the spare now
  spareSvec    : BitVec 57        -- SVEC of its control page (R446)
  positions    : List Nat         -- position serving core k
  leasedCore   : Option Nat       -- the core whose hand-over is under way (R423)
  shadow       : List Shadow
  halted       : Bool
  saved        : List SavedCore   -- at most one core's, by MOVE (R425)
  gmmaQ        : List GmmaJob     -- of the kiln; held at its even cluster
  gmmaRun      : Option GmmaJob
  deriving DecidableEq, Repr

/-- A wait-list entry (R99, R100). -/
structure WaitEntry where
  addr    : Nat
  req     : ObjReq
  target  : Word                  -- ticket of an LTAKE, phase of a BARW whose arrival is made
  arrived : Bool
  spilled : Bool
  seq     : Nat
  deriving DecidableEq, Repr

/-- A line of L2: the page entry it was filled under, and which of its four sectors are valid and dirty (R246). -/
structure L2Line where
  line  : Nat
  entry : Word
  valid : BitVec 4
  dirty : BitVec 4
  deriving DecidableEq, Repr

/-- A request waiting at a slice's data port or channel: access and part, an instruction fill of a core, the look-up of a page for the
object port of a slice (by 1 + its number) or for an engine or the host (0), the fill of a sector that a store allocated, or the
write-back of a dirty sector (R73, R246, R248). -/
inductive SliceReq where
  | part (acc part : Nat)
  | ifill (core sector : Nat)
  | visit (port : Nat)
  | merge
  | writeBack
  deriving DecidableEq, Repr

/-- A slice with its HBM channel, by die·160 + slice. -/
structure Slice where
  inQ       : List SliceReq
  dataAt    : Nat                 -- first cycle at which the data port is free (R247)
  objQ      : List ObjReq
  objAt     : Nat                 -- first cycle at which the object processor is free (R126)
  asking    : List ObjReq         -- OINITs that await the answer of their parent's home (R115)
  probers   : List Nat            -- contexts whose probes wait here for their accesses (R254)
  absent    : List (Nat × Nat)    -- pages whose walks found no usable entry of late, with the cycle (R73, R78)
  tlb       : List (Nat × Word)   -- page and entry, least recently used first
  walks     : List Nat
  walkQ     : List Nat
  merged    : List (Nat × SliceReq)
  withdrawn : List SliceReq       -- requests whose queued walk TLBINV withdrew; they walk again after the drop (R74)
  l2        : List L2Line         -- least recently used first
  chanQ     : List (Nat × SliceReq)  -- line and requester
  filling   : List (Nat × SliceReq)
  joined    : List (Nat × SliceReq)  -- loads that end with the fill of a sector that a store allocated (R246)
  chanAt    : Nat                 -- the cycle at which the channel's latest read ends (R248)
  waits     : List WaitEntry      -- arrival order
  abandoned : List (Nat × Word)   -- lock and ticket (R103)
  corrected : Nat
  uncorrected : Nat
  dropped   : Nat
  leased    : Bool
  moveNext  : Nat
  movedOut  : Bool
  moving    : List SliceReq       -- requests of a line that moves, held until it is remapped (R428)
  deriving DecidableEq, Repr

/-- States of a pending packet (R141). -/
inductive PacketState where
  | verify | depend | timed | placing | running | complete | rejected
  deriving DecidableEq, Repr

/-- A pending packet (R139 to R145). -/
structure Packet where
  words   : List Word
  vf      : Nat
  prio    : Nat
  order   : Nat
  qseq    : Word
  st      : PacketState
  placed  : Nat                   -- contexts or pairs created
  live    : Nat                   -- contexts not Free
  records : Nat                   -- task records on deques
  killed  : Bool
  refused : Option Nat
  deriving DecidableEq, Repr

/-- A CADD.cmb waiting in a switch's wait buffer, and one whose reply is still to be split (R352). -/
structure SwitchEntry where
  req  : ObjReq
  sent : Bool
  left : Nat                      -- of its oldest part: the cycle at which it entered the network,
  port : Nat                      -- and its input port (R351)
  deriving DecidableEq, Repr

/-- A snapshot of a die (R448): object and scheduling state as copied, with the positions of its clusters and the partition in service on
each (R456). -/
structure Snapshot where
  slices  : List (Nat × Slice)
  cores   : List (Nat × Core)
  ctxs    : List (Nat × Ctx)
  clusters : List (Nat × Cluster)
  owners  : List (Nat × Nat)
  objects : List (Nat × Nat × List Byte)   -- the typed sectors: their numbers, tags and bytes
  deriving DecidableEq, Repr

/-- A die. -/
structure Die where
  framebase : BitVec 14
  frames    : BitVec 14
  tlbPage   : BitVec 20
  tlbDone   : Bool
  rdcBase   : BitVec 49
  rdcFrom   : BitVec 49           -- the first line of the removal under way, as RDCBASE stood when RDCLEN was written (R250)
  rdcLen    : BitVec 40
  rdcDone   : Bool
  domDom    : BitVec 16
  domGen    : BitVec 8
  domDone   : Bool
  domGens   : Map (BitVec 8)
  fences    : Map (BitVec 8)      -- generations that the die's banks and slices require (R385)
  snapDone  : Bool
  snapSeq   : BitVec 32
  snapshot  : Option Snapshot
  timeSet   : Bool
  timeBase  : Word                -- timebase at cycle timeAt
  timeAt    : Nat
  timeFrac  : Int                 -- how far timeBase lay behind the exact time at timeAt, in 1/MHz ns; below 0 while it is held (R146)
  slewAt    : Nat                 -- the nanosecond since reset at which it was last slewed (R146)
  sync      : Bool
  uvMargin  : BitVec 8
  rail      : Nat                 -- 5 mV steps below nominal
  lowest    : Nat                 -- lowest setting reached without a raise in the hour after
  hourErrs  : Nat
  rdc       : List Sector         -- least recently used first
  packets   : Map Packet
  rrVf      : Nat
  lastPlace : Nat
  placeSeq  : Nat
  smax      : Map Nat
  booted    : Bool
  bootFail  : Bool
  saggarUse : Map Nat
  switchQ   : List SwitchEntry
  outQ      : Map (List Nat)      -- packets waiting at a switch output
  netErrs   : Nat
  hops      : Map Nat             -- parity failures in a row of each hop that had one; a hop with 8 of them is removed (R409)
  combErrs  : Nat
  reserveLow : Bool               -- too few unused frames to rebuild the lease reserve (R428)
  deriving DecidableEq, Repr

/-- A record ring with its 64-bit sequence number (R383). -/
structure Log where
  seq     : Nat
  records : List (List Word)      -- newest first, cut at the ring size
  deriving DecidableEq, Repr

/-- The partition of VF v (R129) with its logs, listeners and CAPGEN. -/
structure Partition where
  clusters : BitVec 128
  wquota   : BitVec 13
  squota   : BitVec 16
  plimit   : BitVec 16
  domBase  : BitVec 16
  domCount : BitVec 16
  hdom     : BitVec 16
  dq       : Vector (BitVec 57) 4
  hrange   : Vector Word 16
  sagQuota : BitVec 32
  enable   : Bool
  hwen     : Bool
  hwBase   : BitVec 52
  disabling : Bool
  inShadow : Bool
  capGen   : BitVec 16
  listen   : Vector (BitVec 35) 8
  trapLog  : Log
  rejLog   : Log
  killLog  : Log
  deriving DecidableEq, Repr

/-- A host function's control page registers (R136). -/
structure Func where
  apEn   : Bool
  apBase : BitVec 21
  errcnt : BitVec 32
  deriving DecidableEq, Repr

/-- The PF's own control page (R378, R432, R455) and its census area's error log (R130). -/
structure PfRegs where
  out     : BitVec 7
  inn     : BitVec 7
  drained : List Nat              -- the VFs whose partitions are halted and drained (R378)
  done    : Bool
  halting : List Nat              -- the VFs whose partitions halt (R379)
  nouv    : Bool
  clkcap  : BitVec 6
  errlog  : Nat
  deriving DecidableEq, Repr

/-- What a link port sends: a flit, a NAK naming a sequence number, an idle control flit with an ACK and the packet slots of a class that it
returns, a TIME flit (R355, R356, R359). -/
inductive LinkOut where
  | flit (f : Flit)
  | nak (seq : Nat)
  | ack (seq credit cclass : Nat)
  | time (t : Word)
  deriving DecidableEq, Repr

/-- A Plosil Link port (R355 to R359). -/
structure Port where
  width    : Nat
  group    : Nat                  -- the first lane of the group in use (R357)
  good     : BitVec 8
  up       : Bool
  inService : Bool
  draining : Bool
  retry    : List (Nat × Flit)
  pend     : List (Nat × List Byte)   -- packets, by class, of which no flit is sent yet (R355)
  sending  : List Flit            -- what is left of the packet being sent (R356)
  nextSeq  : Nat
  expSeq   : Nat
  nak      : Bool
  ackDue   : Bool
  credits  : Map Nat              -- free packet slots of the other end, by class; 8 where none is listed (R349, R355)
  owed     : Map Nat              -- packet slots, by class, to be returned to the other end (R355)
  delivered : Nat
  rx       : List Byte            -- the packet being received (R355)
  got      : List (Nat × List Byte)   -- the packets received, by class, newest first (R356)
  sentAt   : Word
  gotAt    : Word
  peerSent : Word
  errs     : Nat                  -- flits received with a bad CRC (R409)
  out      : List LinkOut         -- sent, newest first
  deriving DecidableEq, Repr

/-- A lease in progress (R420 to R422): its resource and position, the path, the core served, the record's fields, and the cycle at
which its stage began. -/
structure Lease where
  key    : Nat
  cls    : ResClass
  pos    : Nat
  path   : Nat
  ident  : Nat
  start  : Word
  score  : Nat
  hold   : Nat
  stage  : Nat                    -- 0 hand-over, 1 notify, 2 move, 3 testing, 4 moving back
  since  : Nat
  grace  : Word
  deriving DecidableEq, Repr

/-- The Assay's and the module's own records. -/
structure Assay where
  hbeat     : Word
  scores    : Map Nat
  hourErrs  : Map Nat
  predicted : List Nat
  leases    : List Lease
  leaseLog  : Log
  retired   : List (List Word)    -- newest first
  head      : List Nat            -- digest of the newest record and its two signatures
  due       : List (Nat × Nat)    -- resources whose lease is due, with the cycle at which it became due
  gone      : List Nat            -- retired resources
  last      : Map Nat             -- the nanosecond since reset at which a resource's latest lease started
  fuses     : Nat
  report    : List Byte           -- the latest attestation report (R454), and its two signatures
  signed    : List Nat
  clock     : Nat                 -- 50 MHz steps below 1.8 GHz
  clockAt   : Nat                 -- the cycle at which the clock last changed, and the nanoseconds since reset until then (R455)
  nanoAt    : Nat
  leaseCounts : List Nat
  deriving DecidableEq, Repr

/-- Messages and replies on the networks. -/
inductive NetBody where
  | objReply (req : ObjReq) (code : Nat) (value : Word) (cause : Nat)
      -- code 0 DONE, 1 WOULD_WAIT, 2 ARRIVED, 3 REFUSED, 4 REGISTERED
  | wakeUp (req : ObjReq) (value : Word) (cause : Nat)
  | request (req : ObjReq)
  | user (dest : Nat) (msg : Message) (sender : Nat) (nw : Bool)
  | posted (dest : Nat) (msg : Message) (src : Nat)
      -- src 0 matrix unit, 1 copy engine, 2 dispatcher, 3 Assay, 4 match entry, 5 and 6 a removed command of a copy engine, a matrix unit
  | create (req : Nat) (core : Nat) (ctx : Ctx) (spawner : Nat)
  deriving DecidableEq, Repr

/-- One of them, by name. -/
structure NetMsg where
  id   : Nat
  body : NetBody
  deriving DecidableEq, Repr

/-- What a step brings beyond numbers: the bytes of a host write or completion or of a flit, a window request, the class of a
lease, the result of a test, the array of an error, the writer of a register. -/
inductive EvExt where
  | none
  | bytes (d : List Byte) (flag : Bool)
  | window (r : WindowReq)
  | lease (c : ResClass)
  | test (c : ResClass) (o : TestOutcome)
  | array (k : ArrayKind) (corrected : Bool)
  | write (w : Writer)
  | bar0
  deriving DecidableEq, Repr

/-- What a step without encoding concerns: the agent `who` (a context id, a core, cluster, slice, die, port or function
by its number), the item `what` (a bank, access, message, sector, page, packet, lane or offset) and the value `val`. -/
structure EvArg where
  who  : Nat
  what : Nat
  val  : Nat
  ext  : EvExt
  deriving DecidableEq, Repr

/-- An entry of the agenda: an event, what it concerns and the cycle at which it is due. -/
structure Due where
  at_ : Nat
  ev  : Instr
  arg : EvArg
  deriving DecidableEq, Repr

/-- What the module sends out of band, as MCTP over I3C (R127): the report that a die's firmware was refused (R452), and an attestation
report with its two signatures (R454). -/
inductive MctpMsg where
  | bootFail (die : Nat)
  | attestation (report : List Byte) (signed : List Nat)
  deriving DecidableEq, Repr

/-- The module. -/
structure State where
  cycle     : Nat
  agenda    : List Due
  cur       : Nat
  bun       : Bundle
  blen      : Nat
  arg       : EvArg
  freeCount : Nat
  nextId    : Nat
  mem       : List Host.Cell
  tags      : Map Nat
  poison    : List Nat
  ctxs      : Map Ctx
  cores     : Map Core
  clusters  : Map Cluster
  slices    : Map Slice
  dies      : Map Die
  accs      : List Access
  net       : List NetMsg
  parts     : Map Partition
  funcs     : Map Func
  pf        : PfRegs
  ports     : Map Port
  assay     : Assay
  hostMem   : List Host.Cell
  hostReads : List (List Byte × Bool) -- completions of host reads, newest first, and whether poisoned (R136)
  msix      : List (Nat × Nat)    -- function, vector; newest first
  mctp      : List MctpMsg        -- what left through the management port, newest first (R127)
  deriving DecidableEq, Repr

/-- Why the machine stops with a fault. -/
inductive Fault where
  /-- Raised by ARRAY_ERROR when a logical output of a switch has lost both its ports, which the spec calls a
  module failure handled by pod software outside the module (R409, R450). Safe: nothing is claimed of the module after. -/
  | moduleFailure
  deriving DecidableEq, Repr

/-- Why the machine gives an instruction no meaning. -/
inductive Refusal where
  /-- Raised by exec's arm of an instruction without a meaning in this model. Safe: nothing is claimed of it. -/
  | notModelled (mnemonic : String)
  deriving DecidableEq, Repr

/-- An unused context number's record (R149, R368 to R371: every value 0 but TQUANT's 4,096).
DESIGN CHOICE, notes/assumptions/2.md. -/
def Ctx.initial : Ctx where
  st := .free
  moved := none
  slot := none
  s := Vector.replicate 32 0
  v := Vector.replicate 16 0
  m := Vector.replicate 4 0
  pc := 0
  domain := 0
  prio := 0
  tfmt := 0
  tscale := 0
  gtol := 0
  touch := 0
  wcount := 0
  wlimit := 0
  tquant := 4096
  trappc := 0
  tcause := 0
  tval := 0
  tvecU := 0
  tvecS := 0
  tdeleg := 0
  tsave := Vector.replicate 4 0
  prv := false
  uh := false
  sh := false
  pprv := false
  puh := false
  wake := false
  eerr := false
  pre := false
  rcause := 0
  rtval := 0
  rid := 0
  raddr := 0
  rnext := []
  gen := 0
  twinned := false
  rbk := 0
  moves := 0
  wait := .none
  phase := 0
  probes := []
  relMask := 0
  pend := []
  relaxed := 0
  outstanding := none
  heldTail := none
  transfer := none
  marker := false
  latch := none
  undo := none
  fills := []
  ufetch := []
  nofetch := []
  vectoring := false
  trap := none
  held := none
  heldPc := 0
  dest := 0
  inHand := none
  askAddr := 0
  resuming := false
  killer := 0xFFFFFFFF
  arrived := false
  answer := none
  readyAt := 0
  parkedAt := 0
  enteredAt := 0
  leaves := false
  async := []
  asyncTval := 0
  fatalTval := 0
  domGen := 0
  packet := none
  join := 0
  lastCore := 0
  replay := []
  twin := none
  kill := none
  lastMx := none
  lastCp := none

/-- An empty slot. -/
def SlotUse.initial : SlotUse := ⟨none, none, 0⟩

/-- A bank with nothing waiting. -/
def Bank.initial : Bank := ⟨[], [], 0, 0, [], 0, none, 0⟩

/-- A matrix unit with an empty queue and sequence counter 0 (R308). -/
def MatrixUnit.initial : MatrixUnit := ⟨[], [], 0, none, none, false, none, 0⟩

/-- A core without contexts, messages or commands. DESIGN CHOICE, notes/assumptions/2.md. -/
def Core.initial : Core where
  present := true
  slots := []
  plb := []
  svec := 0
  gens := []
  ready := []
  deque := []
  dequeAt := 0
  popAt := none
  fillAt := 0
  acceptAt := 0
  tcc := []
  thief := ⟨0, none, 0, 256, none⟩
  relaxed := 0
  ifills := []
  l1i := []
  l1d := []
  l1was := none
  epoch := 0
  banks := []
  inbox := []
  saggarMsgs := []
  arrivals := []
  mx := MatrixUnit.initial
  discarded := 0
  dropped := 0
  leaseHold := false

/-- A cluster whose copy engine is idle and whose spare, at position 8, is present and idle.
DESIGN CHOICE, notes/assumptions/2.md. -/
def Cluster.initial : Cluster where
  cpQueue := []
  lanes := []
  cpSeq := 0
  rr := 0
  cpHalted := false
  sparePresent := true
  sparePos := 8
  spareSvec := 0
  positions := [0, 1, 2, 3, 4, 5, 6, 7]
  leasedCore := none
  shadow := []
  halted := false
  saved := []
  gmmaQ := []
  gmmaRun := none

/-- A slice with empty queues, translation buffer, L2 and wait lists. DESIGN CHOICE, notes/assumptions/2.md. -/
def Slice.initial : Slice where
  inQ := []
  dataAt := 0
  objQ := []
  objAt := 0
  asking := []
  probers := []
  absent := []
  tlb := []
  walks := []
  walkQ := []
  merged := []
  withdrawn := []
  l2 := []
  chanQ := []
  filling := []
  joined := []
  chanAt := 0
  waits := []
  abandoned := []
  corrected := 0
  uncorrected := 0
  dropped := 0
  leased := false
  moveNext := 0
  movedOut := false
  moving := []

/-- A die at reset: FRAMES 7,520 and the DONE bits set (R445, R250, R448); the rest 0 or empty.
DESIGN CHOICE, notes/assumptions/2.md. -/
def Die.initial : Die where
  framebase := 0
  frames := 7520
  tlbPage := 0
  tlbDone := true
  rdcBase := 0
  rdcFrom := 0
  rdcLen := 0
  rdcDone := true
  domDom := 0
  domGen := 0
  domDone := true
  domGens := []
  fences := []
  snapDone := true
  snapSeq := 0
  snapshot := none
  timeSet := false
  timeBase := 0
  timeAt := 0
  timeFrac := 0
  slewAt := 0
  sync := false
  uvMargin := 0
  rail := 0
  lowest := 0
  hourErrs := 0
  rdc := []
  packets := []
  rrVf := 0
  lastPlace := 0
  placeSeq := 0
  smax := []
  booted := false
  bootFail := false
  saggarUse := []
  switchQ := []
  outQ := []
  netErrs := 0
  hops := []
  combErrs := 0
  reserveLow := false

/-- An empty log with sequence number 0. -/
def Log.initial : Log := ⟨0, []⟩

/-- A partition descriptor at reset: every register 0 (R129, R427). -/
def Partition.initial : Partition where
  clusters := 0
  wquota := 0
  squota := 0
  plimit := 0
  domBase := 0
  domCount := 0
  hdom := 0
  dq := Vector.replicate 4 0
  hrange := Vector.replicate 16 0
  sagQuota := 0
  enable := false
  hwen := false
  hwBase := 0
  disabling := false
  inShadow := false
  capGen := 0
  listen := Vector.replicate 8 0
  trapLog := Log.initial
  rejLog := Log.initial
  killLog := Log.initial

/-- A function's control page at reset (R136). -/
def Func.initial : Func := ⟨false, 0, 0⟩

/-- The PF's registers at reset (R378, R432, R455). -/
def PfRegs.initial : PfRegs := ⟨0, 0, [], true, [], false, 0, 0⟩

/-- A link port of full width with no flit in its retry buffer. DESIGN CHOICE, notes/assumptions/2.md. -/
def Port.initial : Port where
  width := 8
  group := 0
  good := 0xFF
  up := true
  inService := true
  draining := false
  retry := []
  pend := []
  sending := []
  nextSeq := 0
  expSeq := 0
  nak := false
  ackDue := false
  credits := []
  owed := []
  delivered := 0
  rx := []
  got := []
  sentAt := 0
  gotAt := 0
  peerSent := 0
  errs := 0
  out := []

/-- The Assay's records at reset: no lease, score or record. DESIGN CHOICE, notes/assumptions/2.md. -/
def Assay.initial : Assay where
  hbeat := 0
  scores := []
  hourErrs := []
  predicted := []
  leases := []
  leaseLog := Log.initial
  retired := []
  head := []
  due := []
  gone := []
  last := []
  fuses := 0
  report := []
  signed := []
  clock := 0
  clockAt := 0
  nanoAt := 0
  leaseCounts := [0, 0, 0]

/-- The module right after reset. No program and no context is in it; the two dies verify their firmware (R452), and the
periodic steps stand on the agenda: TIME flits every 1,800 cycles of 1.8 GHz (R359), HBEAT every 100 ms (R450), the rail
every hour (R432), the scores every 6 hours (R430), the intervals of leases (R420). -/
def State.reset : State where
  cycle := 0
  agenda := [⟨0, .secureBoot, ⟨0, 0, 0, .none⟩⟩, ⟨0, .secureBoot, ⟨1, 0, 0, .none⟩⟩] ++
    (List.range 16).map (fun p => ⟨1800, .timeFlitSend, ⟨p, 0, 0, .none⟩⟩) ++
    [⟨180000000, .hbeatTick, ⟨0, 0, 0, .none⟩⟩, ⟨6480000000000, .voltageLower, ⟨0, 0, 0, .none⟩⟩,
     ⟨6480000000000, .voltageLower, ⟨1, 0, 0, .none⟩⟩, ⟨38880000000000, .scoreTick, ⟨0, 0, 0, .none⟩⟩,
     ⟨77760000000000, .leaseStart, ⟨0, 1, 0, .none⟩⟩, ⟨155520000000000, .leaseStart, ⟨1, 1, 0, .none⟩⟩,
     ⟨38880000000000, .leaseStart, ⟨2, 1, 0, .none⟩⟩]
  cur := 0
  bun := ⟨false, .nopc, none⟩
  blen := 1
  arg := ⟨0, 0, 0, .none⟩
  freeCount := 0
  nextId := 0
  mem := []
  tags := []
  poison := []
  ctxs := []
  cores := []
  clusters := []
  slices := []
  dies := [(0, Die.initial), (1, Die.initial)]
  accs := []
  net := []
  parts := []
  funcs := []
  pf := PfRegs.initial
  ports := []
  assay := Assay.initial
  hostMem := []
  hostReads := []
  msix := []
  mctp := []

end Sys2Proof.Machine
end

