-- ==== Sys2Proof/Machine/Store.lean ====
section
/-!
DEFINITION. Tables and memory as sorted lists in one canonical form, the accessors of State's parts, the numbers of cores,
contexts and places, the agenda, and the draws of free values.
-/
namespace Sys2Proof.Machine

/-- The entry of key k. -/
def mapGet {α : Type} : Map α → Nat → Option α
  | [], _ => none
  | (j, v) :: m, k => if j = k then some v else mapGet m k

/-- The entry of key k set to v, keys rising. -/
def mapSet {α : Type} : Map α → Nat → α → Map α
  | [], k, v => [(k, v)]
  | (j, w) :: m, k, v => if k < j then (k, v) :: (j, w) :: m else if j = k then (k, v) :: m else (j, w) :: mapSet m k v

/-- No entry of key k. -/
def mapErase {α : Type} : Map α → Nat → Map α
  | [], _ => []
  | (j, w) :: m, k => if j = k then m else (j, w) :: mapErase m k

/-- The byte at a place; a place that nothing has written reads 0 (notes/assumptions/1.md). -/
def memGet : List Host.Cell → Nat → Byte
  | [], _ => 0
  | (j, b) :: m, k => if j = k then b else memGet m k

/-- The byte at a place written: addresses stay rising, and a byte of 0 is not listed. -/
def memSet : List Host.Cell → Nat → Byte → List Host.Cell
  | [], k, b => if b = 0 then [] else [(k, b)]
  | (j, c) :: m, k, b =>
    if k < j then (if b = 0 then (j, c) :: m else (k, b) :: (j, c) :: m)
    else if j = k then (if b = 0 then m else (k, b) :: m)
    else (j, c) :: memSet m k b

/-- Keys rising from a bound. -/
def rising {α : Type} : Nat → List (Nat × α) → Bool
  | _, [] => true
  | lo, (k, _) :: m => decide (lo ≤ k) && rising (k + 1) m

/-- Canonical memory: addresses strictly rising, no entry of value 0. -/
abbrev memWf (m : List Host.Cell) : Prop := rising 0 m = true ∧ m.all (fun c => c.2 != 0) = true

/-- n consecutive bytes. -/
def memBytes (m : List Host.Cell) (k n : Nat) : List Byte := (List.range n).map fun i => memGet m (k + i)

/-- Consecutive bytes written. -/
def memWrite (m : List Host.Cell) (k : Nat) : List Byte → List Host.Cell
  | [] => m
  | b :: bs => memWrite (memSet m k b) (k + 1) bs

/-- The number that bytes spell, least significant first (R4). -/
def natOfBytes : List Byte → Nat
  | [] => 0
  | b :: bs => b.toNat + 256 * natOfBytes bs

/-- The low n bytes of a number, least significant first (R4). -/
def bytesOfNat : Nat → Nat → List Byte
  | 0, _ => []
  | n + 1, x => BitVec.ofNat 8 x :: bytesOfNat n (x / 256)

/-- A 64-bit word from a number. -/
def word (n : Nat) : Word := BitVec.ofNat 64 n

/-- Bits [hi:lo] of a word as a number. -/
def bits (w : Word) (hi lo : Nat) : Nat := w.toNat / 2 ^ lo % 2 ^ (hi + 1 - lo)

/-! Numbers of agents. -/

/-- The architectural core of a global context id: bits [21:12] (R151). -/
def coreOf (gid : Nat) : Nat := gid / 4096 % 1024

/-- The context number of a global context id (R151). -/
def numOf (gid : Nat) : Nat := gid % 4096

/-- The global context id of a core's context number (R151). -/
def gidOf (core num : Nat) : Nat := Config.moduleNumber * 2 ^ 22 + core * 4096 + num

/-- The die of a core. -/
def dieOfCore (core : Nat) : Nat := core / 512

/-- The cluster of a core, numbered die·64 + cluster. -/
def clusterOf (core : Nat) : Nat := core / 8

/-- The slice of a die. -/
def sliceOf (die h : Nat) : Nat := die * Config.slices + h

/-! Parts of the state. -/

/-- A context by its id. -/
def State.ctx (s : State) (g : Nat) : Ctx := (mapGet s.ctxs g).getD Ctx.initial

/-- The core that a context is at: that of its id, or the one a capacity move took it to (R151, R425). -/
def Ctx.at (c : Ctx) (g : Nat) : Nat := c.moved.getD (coreOf g)

/-- The core that a context is at. -/
def State.at (s : State) (g : Nat) : Nat := (s.ctx g).at g

/-- A context replaced. -/
def State.setCtx (s : State) (g : Nat) (c : Ctx) : State := { s with ctxs := mapSet s.ctxs g c }

/-- A context changed. -/
def State.modCtx (s : State) (g : Nat) (f : Ctx → Ctx) : State := s.setCtx g (f (s.ctx g))

/-- A core by its number. -/
def State.core (s : State) (k : Nat) : Core := (mapGet s.cores k).getD Core.initial

/-- A core replaced. -/
def State.setCore (s : State) (k : Nat) (c : Core) : State := { s with cores := mapSet s.cores k c }

/-- A core changed. -/
def State.modCore (s : State) (k : Nat) (f : Core → Core) : State := s.setCore k (f (s.core k))

/-- A cluster by its number. -/
def State.cluster (s : State) (k : Nat) : Cluster := (mapGet s.clusters k).getD Cluster.initial

/-- A cluster changed. -/
def State.modCluster (s : State) (k : Nat) (f : Cluster → Cluster) : State :=
  { s with clusters := mapSet s.clusters k (f (s.cluster k)) }

/-- A slice by its number. -/
def State.slice (s : State) (k : Nat) : Slice := (mapGet s.slices k).getD Slice.initial

/-- A slice changed. -/
def State.modSlice (s : State) (k : Nat) (f : Slice → Slice) : State :=
  { s with slices := mapSet s.slices k (f (s.slice k)) }

/-- Every listed slice of a die changed. -/
def State.mapSlices (s : State) (die : Nat) (f : Slice → Slice) : State :=
  { s with slices := s.slices.map fun x => if x.1 / Config.slices = die then (x.1, f x.2) else x }

/-- Every access in flight changed. -/
def State.mapAccs (s : State) (f : Access → Access) : State := { s with accs := s.accs.map f }

/-- A die. -/
def State.die (s : State) (k : Nat) : Die := (mapGet s.dies k).getD Die.initial

/-- A die changed. -/
def State.modDie (s : State) (k : Nat) (f : Die → Die) : State := { s with dies := mapSet s.dies k (f (s.die k)) }

/-- The partition of VF v. -/
def State.part (s : State) (v : Nat) : Partition := (mapGet s.parts v).getD Partition.initial

/-- A partition changed. -/
def State.modPart (s : State) (v : Nat) (f : Partition → Partition) : State :=
  { s with parts := mapSet s.parts v (f (s.part v)) }

/-- A function's control page. -/
def State.func (s : State) (v : Nat) : Func := (mapGet s.funcs v).getD Func.initial

/-- A function changed. -/
def State.modFunc (s : State) (v : Nat) (f : Func → Func) : State := { s with funcs := mapSet s.funcs v (f (s.func v)) }

/-- A link port. -/
def State.port (s : State) (p : Nat) : Port := (mapGet s.ports p).getD Port.initial

/-- A port changed. -/
def State.modPort (s : State) (p : Nat) (f : Port → Port) : State := { s with ports := mapSet s.ports p (f (s.port p)) }

/-- A slot of a core. -/
def Core.slot (c : Core) (k : Nat) : SlotUse := (mapGet c.slots k).getD SlotUse.initial

/-- A slot replaced. -/
def Core.setSlot (c : Core) (k : Nat) (u : SlotUse) : Core := { c with slots := mapSet c.slots k u }

/-- A bank of a core. -/
def Core.bank (c : Core) (k : Nat) : Bank := (mapGet c.banks k).getD Bank.initial

/-- A bank changed. -/
def Core.modBank (c : Core) (k : Nat) (f : Bank → Bank) : Core := { c with banks := mapSet c.banks k (f (c.bank k)) }

/-- A PLB entry. -/
def Core.plbEntry (c : Core) (k : Nat) : Word := (mapGet c.plb k).getD 0

/-- A generation tag. -/
def Core.genTag (c : Core) (k : Nat) : BitVec 12 := (mapGet c.gens k).getD 0

/-- A packet of a die's table. -/
def State.packet (s : State) (die idx : Nat) : Option Packet := mapGet (s.die die).packets idx

/-- A packet changed. -/
def State.modPacket (s : State) (die idx : Nat) (f : Packet → Packet) : State :=
  match s.packet die idx with
  | none => s
  | some p => s.modDie die fun d => { d with packets := mapSet d.packets idx (f p) }

/-- The tag of a sector by its place divided by 64 (R81). -/
def State.tag (s : State) (sector : Nat) : Nat := (mapGet s.tags sector).getD 0

/-- A sector's tag set; the tag 0 is not listed. DESIGN CHOICE, notes/assumptions/1.md. -/
def State.setTag (s : State) (sector tag : Nat) : State :=
  { s with tags := if tag = 0 then mapErase s.tags sector else mapSet s.tags sector tag }

/-! The agenda. -/

/-- An event put on the agenda, due d cycles from now. -/
def State.post (s : State) (d : Nat) (ev : Instr) (who : Nat) (what : Nat := 0) (val : Nat := 0) (ext : EvExt := .none) :
    State :=
  { s with agenda := s.agenda ++ [⟨s.cycle + d, ev, ⟨who, what, val, ext⟩⟩] }

/-- An event put on the agenda unless the same one already stands there. -/
def State.postOnce (s : State) (d : Nat) (ev : Instr) (who : Nat) (what : Nat := 0) : State :=
  if s.agenda.any (fun x => decide (x.ev = ev) && x.arg.who == who && x.arg.what == what) then s
  else s.post d ev who what

/-- An event put on the agenda, in place of the same one that stands there for a later cycle. -/
def State.postSoon (s : State) (d : Nat) (ev : Instr) (who : Nat) (what : Nat := 0) : State :=
  let same := fun (x : Due) => decide (x.ev = ev) && x.arg.who == who && x.arg.what == what
  if s.agenda.any (fun x => same x && decide (x.at_ ≤ s.cycle + d)) then s
  else { s with agenda := s.agenda.filter fun x => !same x }.post d ev who what

/-- Every entry of an event for one agent and item taken off the agenda. -/
def State.unpost (s : State) (ev : Instr) (who : Nat) (what : Nat := 0) : State :=
  { s with agenda := s.agenda.filter fun x => !(decide (x.ev = ev) && x.arg.who == who && x.arg.what == what) }

/-- A new name for an access, request or message. -/
def State.fresh (s : State) : Nat × State := (s.nextId, { s with nextId := s.nextId + 1 })

/-- A time within a tabled range: a free value (notes/assumptions/4.md). -/
def State.freeRange (s : State) (lo hi : Nat) : Nat × State :=
  (lo + Config.freeLatency s.freeCount % (hi + 1 - lo), { s with freeCount := s.freeCount + 1 })

/-- A free value of any number. DESIGN CHOICE, notes/assumptions/4.md. -/
def State.freeNat (s : State) : Nat × State := (Config.freeValue s.freeCount, { s with freeCount := s.freeCount + 1 })

/-! Registers. -/

/-- A scalar register; s0 reads 0 (R29). -/
def Ctx.getS (c : Ctx) (r : SReg) : Word := if r = 0 then 0 else c.s[r]

/-- A vector register. -/
def Ctx.getV (c : Ctx) (r : VReg) : Vec := c.v[r]

/-- A lane mask; m0 reads all ones (R29). -/
def Ctx.getM (c : Ctx) (r : MReg) : Word := if r = 0 then BitVec.allOnes 64 else c.m[r]

/-- A register written; writes to s0 and m0 are discarded (R29). -/
def Ctx.setReg (c : Ctx) (w : RegWrite) : Ctx :=
  match w.reg with
  | .s r => if r = 0 then c else { c with s := c.s.set r (BitVec.ofNat 64 w.val) }
  | .v r => { c with v := c.v.set r (BitVec.ofNat 512 w.val) }
  | .m r => if r = 0 then c else { c with m := c.m.set r (BitVec.ofNat 64 w.val) }

/-- Registers written in order. -/
def Ctx.setRegs (c : Ctx) (ws : List RegWrite) : Ctx := ws.foldl Ctx.setReg c

/-- A scalar write. -/
def setS (r : SReg) (w : Word) : RegWrite := ⟨.s r, w.toNat⟩

/-- A vector write. -/
def setV (r : VReg) (v : Vec) : RegWrite := ⟨.v r, v.toNat⟩

/-- A mask write. -/
def setM (r : MReg) (w : Word) : RegWrite := ⟨.m r, w.toNat⟩

/-- An effect of turn class (R186). -/
def Effect.turn (ws : List RegWrite) : Effect := ⟨ws, []⟩

/-- An effect of long latency (R186, R194). -/
def Effect.long (latency : Nat) (ws : List RegWrite) : Effect := ⟨[], ws.map fun w => (latency, w)⟩

/-- No effect. -/
def Effect.none : Effect := ⟨[], []⟩

/-- Two halves together (R14). -/
def Effect.join (a b : Effect) : Effect := ⟨a.now ++ b.now, a.later ++ b.later⟩

end Sys2Proof.Machine
end

