-- ==== Sys2Proof/Machine/Ops.lean ====
section
/-!
DEFINITION. The named operations every family shares: causes, partitions, address checks and protection, the frame table,
the touched-target mask, instruction fetch, parking and resuming, retiring a bundle, taking a trap and starting a kill.
-/
namespace Sys2Proof.Machine

/-! Causes (R364). -/

/-- ILLEGAL_OP. -/
def Cause.illegalOp : Nat := 0x01
/-- EXT_UNCLAIMED. -/
def Cause.extUnclaimed : Nat := 0x02
/-- BAD_TARGET. -/
def Cause.badTarget : Nat := 0x03
/-- MISALIGNED_PAIR. -/
def Cause.misalignedPair : Nat := 0x04
/-- PENDING_READ. -/
def Cause.pendingRead : Nat := 0x05
/-- PENDING_WRITE. -/
def Cause.pendingWrite : Nat := 0x06
/-- PRIVILEGED. -/
def Cause.privileged : Nat := 0x07
/-- MISALIGNED. -/
def Cause.misaligned : Nat := 0x08
/-- PROTECTION. -/
def Cause.protection : Nat := 0x09
/-- TRANSLATION. -/
def Cause.translation : Nat := 0x0A
/-- OBJ_TYPE. -/
def Cause.objType : Nat := 0x0B
/-- OBJ_STORE. -/
def Cause.objStore : Nat := 0x0C
/-- OBJ_WAITFULL. -/
def Cause.objWaitfull : Nat := 0x0D
/-- MX_CMD. -/
def Cause.mxCmd : Nat := 0x0E
/-- CP_CMD. -/
def Cause.cpCmd : Nat := 0x0F
/-- ENGINE_ERROR. -/
def Cause.engineError : Nat := 0x10
/-- SINGULAR_BLOCK. -/
def Cause.singularBlock : Nat := 0x11
/-- SCOPE_MISMATCH. -/
def Cause.scopeMismatch : Nat := 0x12
/-- WATCHDOG. -/
def Cause.watchdog : Nat := 0x13
/-- ABSENT_CORE. -/
def Cause.absentCore : Nat := 0x14
/-- SOFT_TRAP. -/
def Cause.softTrap : Nat := 0x15
/-- PARITY_KILL. -/
def Cause.parityKill : Nat := 0x16
/-- TWIN_MISMATCH. -/
def Cause.twinMismatch : Nat := 0x17
/-- KILLED. -/
def Cause.killed : Nat := 0x18
/-- DOMAIN. -/
def Cause.domain : Nat := 0x19
/-- QUOTA. -/
def Cause.quota : Nat := 0x1A

/-- A cause with the value TVAL receives. -/
abbrev Trap := Nat × Word

/-- The causes that start the kill sequence (R364). -/
def Cause.fatal (c : Nat) : Bool :=
  c == Cause.translation || c == Cause.parityKill || c == Cause.twinMismatch || c == Cause.killed

/-- The causes a user context may have delegated to it (R364), as a mask for TDELEG (R368). -/
def delegable : BitVec 32 :=
  [0x0D, 0x0E, 0x0F, 0x10, 0x11, 0x12, 0x13, 0x15].foldl (fun m c => m ||| ((1 : BitVec 32) <<< c)) 0

/-! Partitions. -/

/-- The enabled partition that holds a cluster (R129, R130). -/
def State.partOfCluster (s : State) (cl : Nat) : Option Nat :=
  (s.parts.find? fun p => p.2.enable && p.2.clusters.getLsbD cl).map (·.1)

/-- The enabled partition of a core. -/
def State.partOfCore (s : State) (core : Nat) : Option Nat := s.partOfCluster (clusterOf core)

/-- The clusters of a partition, in ascending physical order (R7, R131). -/
def Partition.clusterList (p : Partition) : List Nat := (List.range 128).filter fun c => p.clusters.getLsbD c

/-- The cores of a partition, in partition-relative order (R131). -/
def Partition.coreList (p : Partition) : List Nat :=
  p.clusterList.flatMap fun c => (List.range 8).map fun k => 8 * c + k

/-- The cores of the partition of a core; none when no partition is in service there. -/
def State.coresOf (s : State) (core : Nat) : List Nat :=
  match s.partOfCore core with
  | none => []
  | some v => (s.part v).coreList

/-- A domain of the partition: DOMBASE to DOMBASE + DOMCOUNT − 1 (R129). -/
def Partition.hasDomain (p : Partition) (d : Nat) : Bool :=
  decide (p.domBase.toNat ≤ d) && decide (d < p.domBase.toNat + p.domCount.toNat)

/-- A domain of the partition of a core. -/
def State.domainOk (s : State) (core d : Nat) : Bool :=
  match s.partOfCore core with
  | none => false
  | some v => (s.part v).hasDomain d

/-! Time. -/

/-- The clock in MHz: it steps by 50 MHz below 1.8 GHz (R455). -/
def State.mhz (s : State) : Nat := 1800 - 50 * s.assay.clock

/-- How far a die's timebase has come since timeAt, in 1/mhz ns; below 0 while it is held (R146). -/
def State.timeCount (s : State) (die : Nat) : Int := (((s.cycle - (s.die die).timeAt) * 1000 : Nat) : Int) + (s.die die).timeFrac

/-- The whole ticks of that. -/
def State.timeTicks (s : State) (die : Nat) : Nat := (s.timeCount die / s.mhz).toNat

/-- The timebase of a die (R146): 1 ns ticks, set at cycle timeAt. -/
def State.time (s : State) (die : Nat) : Word :=
  if (s.die die).timeSet then (s.die die).timeBase + word (s.timeTicks die) else 0

/-- The part of a tick beyond the timebase's value. -/
def State.timeRest (s : State) (die : Nat) : Int := s.timeCount die - s.mhz * s.timeTicks die

/-- A die's timebase counts on from a value, with so much of a tick beyond it (R146). -/
def State.setTime (s : State) (die : Nat) (t : Word) (frac : Int) : State :=
  s.modDie die fun d => { d with timeBase := t, timeAt := s.cycle, timeFrac := frac }

/-- The cycles of a number of nanoseconds at the present clock (R455). DESIGN CHOICE, notes/assumptions/41.md. -/
def State.cyclesOf (s : State) (ns : Nat) : Nat := (ns * s.mhz + 999) / 1000

/-- The nanoseconds since reset, whatever the clock was (R455). -/
def State.nanos (s : State) : Nat := s.assay.nanoAt + (s.cycle - s.assay.clockAt) * 1000 / s.mhz

/-- The first cycle at or after e at which a slot has a turn (R3, R179). -/
def turnAt (slot e : Nat) : Nat := e + (slot + 16 - e % 16) % 16

/-! Addresses (R59 to R65). -/

/-- Where an address leads. -/
inductive Place where
  | slab (core : Nat) (byte : Nat)
  | global (module die off : Nat)
  | census (die : Nat) (off : Nat)
  | host (off : Nat)
  deriving DecidableEq, Repr

/-- Rights of R75, as bits: R 1, W 2, X 4, O 8. -/
abbrev Rights := Nat

/-- The rights a PLB entry grants a domain at an address (R76). -/
def plbEntryRights (e : Word) (dom : BitVec 16) (a : Word) : Rights :=
  let size := bits e 8 5
  let base := bits e 62 32
  if bits e 0 0 = 1 ∧ bits e 31 16 = dom.toNat ∧ base % 2 ^ size = 0 ∧ bits a 55 25 / 2 ^ size = base / 2 ^ size
    then bits e 4 1 else 0

/-- The rights the PLB of a core grants a domain at an address, of all matching entries together (R75). -/
def State.plbRights (s : State) (core : Nat) (dom : BitVec 16) (a : Word) : Rights :=
  (s.core core).plb.foldl (fun r e => Nat.lor r (plbEntryRights e.2 dom a)) 0

/-- Every right of `need` is in `have_`. -/
def Rights.cover (have_ need : Rights) : Bool := Nat.land have_ need == need

/-- The cluster a near-window slab address names, for an issuing core (R62). -/
def State.slabCluster (s : State) (core : Nat) (a : Word) : Option Nat :=
  let own := clusterOf core
  if bits a 46 46 = 0 ∧ bits a 44 39 = 63 then some own
  else
    match s.partOfCore core with
    | none => none
    | some v => ((s.part v).clusterList.filter fun c => c / 64 == bits a 45 45)[bits a 44 39]?

/-- Own-core mode: die and cluster fields name the issuing core's own cluster (R63). -/
def State.ownCoreOk (s : State) (core : Nat) (a : Word) : Bool :=
  bits a 45 45 == dieOfCore core && s.slabCluster core a == some (clusterOf core) && bits a 20 18 == 0

/-- The core within its cluster and the byte that a slab offset names, by address mode (R63). -/
def slabByte (am : AddrMode) (core : Nat) (off : Nat) : Nat × Nat :=
  match am with
  | .global | .slabLocal => (off / 2 ^ 18 % 8, off % 2 ^ 18)
  | .striped => (off / 8 % 8, off / 64 % 2 ^ 15 * 8 + off % 8)
  | .own => (core % 8, off % 2 ^ 18)

/-- The MISALIGNED conditions of an address in an address mode (R59, R61, R63, R137, R443). -/
def State.addrMisaligned (s : State) (core : Nat) (am : AddrMode) (a : Word) (align : Nat) : Bool :=
  bits a 63 57 != 0 || a.toNat % align != 0 ||
  (if bits a 56 56 = 0 then am != .global
   else
     match bits a 55 53 with
     | 0 => bits a 52 47 != 0 || bits a 38 21 != 0 || (am == .own && !s.ownCoreOk core a)
     | 1 => am != .global || bits a 52 46 != 0 || bits a 44 28 != 0
     | 2 => am != .global || bits a 52 40 != 0
     | _ => true)

/-- The host window is enabled for the partition of a core (R137). -/
def State.hostOpen (s : State) (core : Nat) : Bool :=
  match s.partOfCore core with
  | none => false
  | some v => (s.part v).hwen

/-- The checks of R77 made at issue, and where the address leads. -/
def State.checkAddr (s : State) (g : Nat) (am : AddrMode) (a : Word) (align : Nat) (need : Rights) : Except Trap Place :=
  let c := s.ctx g
  let core := s.at g
  if s.addrMisaligned core am a align then .error (Cause.misaligned, a)
  else if bits a 56 56 = 0 then
    if !c.prv && !Rights.cover (s.plbRights core c.domain a) need then .error (Cause.protection, a)
    else .ok (.global (bits a 55 46) (bits a 45 45) (bits a 44 0))
  else if bits a 55 53 = 0 then
    match s.slabCluster core a with
    | none => .error (Cause.protection, a)
    | some cl =>
      let p := slabByte am core (bits a 20 0)
      if !(s.core (8 * cl + p.1)).present then .error (Cause.absentCore, a) else .ok (.slab (8 * cl + p.1) p.2)
  else if !c.prv then .error (Cause.privileged, a)
  else if bits a 55 53 = 1 then .ok (.census (bits a 45 45) (bits a 27 0))
  else if !s.hostOpen core then .error (Cause.protection, a)
  else .ok (.host (bits a 39 0))

/-! Frame table and places of storage (R66 to R71). -/

/-- The place of a byte of a line slot of a channel of a frame. DESIGN CHOICE, notes/assumptions/44.md. -/
def hbmPlace (die h frame slot byte : Nat) : Nat :=
  (((die * Config.slices + h) * Config.frameSlots + frame) * Config.lineSlots + slot) * 256 + byte

/-- The place of a byte of a core's local memory, above every HBM place. DESIGN CHOICE, notes/assumptions/44.md. -/
def slabPlace (core byte : Nat) : Nat := 2 ^ 50 + core * 2 ^ 18 + byte

/-- The home slice of an offset (R66). -/
def homeOf (off : Nat) : Nat := off / 256 % Config.slices

/-- The place of a byte of a die's virtual space in a frame (R67). -/
def framePlace (die off frame : Nat) : Nat :=
  let page := off / 2 ^ 25
  hbmPlace die (homeOf off) frame ((off / 256 % 2 ^ 17 + 32 * page % 160) / 160) (off % 256)

/-- A write of this issue is dropped: its domain's generation is older than the die requires, of generations of 8 bits the nearer way
round (R385). DEDUCED, notes/assumptions/34.md. -/
def State.fenced (s : State) (die : Nat) (dom : BitVec 16) (gen : BitVec 8) : Bool :=
  match mapGet (s.die die).fences dom.toNat with
  | none => false
  | some g => g != gen && decide ((g - gen).toNat < 128)

/-- The slice in whose channel a sector of global memory lies. -/
def sectorSlice (n : Nat) : Nat := n / (4 * Config.lineSlots * Config.frameSlots)

/-- The sector that precedes a sector of global memory in its page, by the layout of R67: the line before lies in the channel before, or
in the last channel's slot before. -/
def prevSector (n : Nat) : Nat :=
  if n % 4 ≠ 0 then n - 1
  else
    let slot := n / 4 % Config.lineSlots
    let frame := n / 4 / Config.lineSlots % Config.frameSlots
    let t := slot * Config.slices + sectorSlice n % Config.slices - 1
    hbmPlace (sectorSlice n / Config.slices) (t % Config.slices) frame (t / Config.slices) 192 / 64

/-- The sector of the header that holds a member sector, by the tags before it: a barrier's, or a FAULTED one's (R84, R86). Any other
sector holds itself. -/
def State.holderSector (s : State) : Nat → Nat → Nat
  | 0, n => n
  | k + 1, n => if s.tag n = 3 then s.holderSector k (prevSector n) else n

/-- The slice whose object storage holds a sector of global memory (R84): a member sector's is that of its header. -/
def State.holderSlice (s : State) (n : Nat) : Nat :=
  let h := s.holderSector 16 n
  sectorSlice (if s.tag h = 2 ∨ s.tag h = 8 then h else n)

/-- Entry P of a die's frame table, which lies in the first 8 MiB of frame FRAMEBASE (R68). DEDUCED, notes/assumptions/17.md. -/
def State.pageEntry (s : State) (die page : Nat) : Word :=
  let o := 8 * page
  word (natOfBytes (memBytes s.mem (hbmPlace die (homeOf o) (s.die die).framebase.toNat (o / 256 / 160) (o % 256)) 8))

/-- An entry is usable (R69). -/
def State.entryUsable (s : State) (die : Nat) (e : Word) : Bool :=
  bits e 0 0 == 1 && bits e 15 8 == 0 && bits e 63 30 == 0 && !(bits e 6 6 == 1 && bits e 4 4 == 1)
    && !(bits e 6 6 == 1 && bits e 5 5 == 1) && decide (bits e 29 16 < (s.die die).frames.toNat)

/-- The rights of a page entry, as R75 numbers them (R68, R71). -/
def entryRights (e : Word) : Rights := bits e 4 1

/-- A usable entry that grants the rights of R71. -/
def State.pageGrants (s : State) (die : Nat) (e : Word) (need : Rights) : Bool :=
  s.entryUsable die e && Rights.cover (entryRights e) need

/-- The entry under which a slice serves a page: the one its L2 line or its translation buffer holds, else the table's. -/
def State.entryOf (s : State) (die off : Nat) : Word :=
  let sl := s.slice (sliceOf die (homeOf off))
  match sl.l2.find? (fun l => l.line == off / 256) with
  | some l => l.entry
  | none =>
    match sl.tlb.find? (fun t => t.1 == off / 2 ^ 25) with
    | some t => t.2
    | none => s.pageEntry die (off / 2 ^ 25)

/-- The place of a byte of a die's virtual space, by its page's entry. -/
def State.globalPlace (s : State) (die off : Nat) : Nat := framePlace die off (bits (s.entryOf die off) 29 16)

/-! The touched-target mask (R253, R254). -/

/-- The TOUCH bit of a place, for an issuing core; census accesses have none. -/
def touchBit (core : Nat) : Place → Option Nat
  | .slab k _ =>
    if clusterOf k = clusterOf core then some (k % 8)
    else if dieOfCore k = dieOfCore core then some (8 + clusterOf k % 64 % 8) else some 16
  | .global m d off =>
    if m ≠ Config.moduleNumber then some (57 + m % 6)
    else if d = dieOfCore core then some (17 + homeOf off % 32) else some (49 + homeOf off % 8)
  | .census _ _ => none
  | .host _ => some 63

/-- The TOUCH bits within a scope of an issuing core (R254). -/
def scopeMask (core : Nat) : Scope → Word
  | .core => (1 : Word) <<< (core % 8)
  | .cluster => 0xFF
  | .die => 0x0001_FFFF_FFFE_FFFF
  | .module => 0x01FF_FFFF_FFFF_FFFF
  | .pod => 0xFFFF_FFFF_FFFF_FFFF

/-- The bits of a mask, ascending. -/
def maskBits (w : Word) : List Nat := (List.range 64).filter fun i => w.getLsbD i

/-! Caches of sectors: least recently used line first (R180, R243, R249). -/

/-- The sector at an address, if held. -/
def cacheFind (c : List Sector) (a : Nat) : Option Sector := c.find? fun x => x.addr == a / 64 * 64

/-- A line made the most recently used. -/
def cacheTouch (c : List Sector) (a : Nat) : List Sector :=
  (c.filter fun x => x.addr / 256 != a / 256) ++ c.filter fun x => x.addr / 256 == a / 256

/-- A sector installed; a set beyond its ways loses its least recently used line. -/
def cacheInsert (setOf : Nat → Nat) (ways : Nat) (c : List Sector) (a : Nat) (d : BitVec 512) : List Sector :=
  let c := cacheTouch ((c.filter fun x => x.addr != a) ++ [⟨a, d⟩]) a
  let same := (c.filter fun x => setOf (x.addr / 256) == setOf (a / 256)).map fun x => x.addr / 256
  match same.eraseDups with
  | [] => c
  | l :: ls => if ls.length + 1 > ways then c.filter fun x => x.addr / 256 != l else c

/-- The set of a line in an L1 cache of 64 sets (R180, R243), which give no index: the line's low six bits.
DESIGN CHOICE, notes/assumptions/56.md. -/
def l1Set (line : Nat) : Nat := line % 64

/-- The bank and set of a line in the remote-data cache: 32 banks by address bits [12:8], 384 sets (R249), by the line's next higher bits.
DESIGN CHOICE, notes/assumptions/56.md. -/
def rdcSet (line : Nat) : Nat := line % 32 + 32 * (line / 32 % 384)

/-- The word of a sector's data at an address. -/
def sectorWord (d : BitVec 512) (a : Nat) : Code := d.extractLsb' (8 * (a % 64)) 32

/-! Waiting. -/

/-- The wait reason of a context (R374). -/
def Wait.reason : Wait → Nat
  | .none => 0
  | .regs | .handler | .restore => 1
  | .comparator | .access _ | .issue | .accepted | .probes | .answer | .kills _ | .drain => 2
  | .object _ _ => 3
  | .recv => 4
  | .mxq => 5
  | .cpq => 6
  | .waitt _ => 8
  | .fetchFill => 9
  | .lease => 10
  | .pageMove => 11
  | .halted _ => 12
  | .swappedOut => 13
  | .escalation => 14

/-- WREASON of a context: that of its wait, 13 while it is swapped, 0 while it is Running (R147, R374, R380). -/
def Ctx.wreason (c : Ctx) : Nat := if c.st = .swapped then 13 else if c.st = .running then 0 else c.wait.reason

/-- The wait reasons that WDOG counts (R374). -/
def Wait.counted (w : Wait) : Bool := [3, 4, 5, 6].contains w.reason

/-- A slot fill, displacement or steal of the core is looked for, one fill a cycle (R158, R162, R166). -/
def State.kick (s : State) (core : Nat) : State := s.postSoon ((s.core core).fillAt - s.cycle) .slotFill core

/-- A core with a Ready context looks whether one of its slots is to be given up (R162, R163). -/
def State.lookReady (s : State) (core : Nat) : State := if (s.core core).ready = [] then s else s.kick core

/-- A QUIT's drain may have come to its end: it is looked at now (R174, R177). -/
def State.lookDrain (s : State) (g : Nat) : State :=
  if (s.ctx g).wait = .drain ∧ (s.ctx g).kill = none then s.postSoon 0 .quitComplete g else s

/-- The park of a context in its slot: it issues nothing until the awaited event. With a counted reason its COUNT is looked at
every 16 cycles (R376); a Ready context of the core may displace it now (R162). -/
def State.park (s : State) (g : Nat) (w : Wait) : State :=
  let c := s.ctx g
  let s := s.setCtx g { c with st := .parked, wait := w, parkedAt := s.cycle }
  (if w.counted then s.post 16 .watchdogExpiry g s.cycle else s).lookReady (s.at g)

/-- An entry of a ready queue takes its place: behind those that entered before and those of its cycle that rank no later (R159). -/
def insertReady (q : List ReadyEntry) (e : ReadyEntry) : List ReadyEntry :=
  (q.filter fun x => decide (x.since < e.since) || decide (x.rank ≤ e.rank)) ++ e ::
    q.filter fun x => !(decide (x.since < e.since) || decide (x.rank ≤ e.rank))

/-- The rank in its cycle of a context that becomes Ready from Cached or Spilled, behind those that leave a slot (R159). -/
def rankWoken : Nat := 16

/-- The rank of a new context in its cycle (R159). -/
def rankNew : Nat := 17

/-- A context enters the tail of its core's ready queue at its level (R159). The queue's 256 entries bound what may be created (R155,
R172); a context that leaves a slot or wakes enters all the same. DESIGN CHOICE, notes/assumptions/57.md. -/
def State.makeReady (s : State) (g : Nat) (rank : Nat) : State :=
  let c := s.ctx g
  let core := s.at g
  let s := s.setCtx g { c with st := .ready, slot := none, latch := none, fills := [], ufetch := [], leaves := false }
  let s := s.modCore core fun k =>
    { k with ready := insertReady k.ready ⟨g, c.prio, s.cycle, rank, s.time (dieOfCore core)⟩ }
  (s.post (256 * c.tquant.toNat) .readyPromotion core g).kick core

/-- A context of a partition that is swapped out on its cluster (R380). -/
def State.swappedOut (s : State) (g : Nat) : Bool := (s.cluster (clusterOf (s.at g))).shadow.any fun x => x.ctxs.contains g

/-- The shadow storage that a context's partition stands in, changed. -/
def State.modShadow (s : State) (g : Nat) (f : Shadow → Shadow) : State :=
  if s.swappedOut g then
    s.modCluster (clusterOf (s.at g)) fun x => { x with shadow := x.shadow.map fun y => if y.ctxs.contains g then f y else y }
  else s

/-- The commands of a context that a swapped cluster's engines hold. -/
def Shadow.commands (x : Shadow) (g : Nat) (gen : BitVec 12) : Nat :=
  (x.cpQ.filter fun m => m.gid == g && m.gen == gen).length
    + (x.cores.flatMap fun k => (k.2.mx.queue ++ k.2.mx.run.toList.map (·.cmd)).filter fun m => m.gid == g && m.gen == gen).length

/-- Those commands are cancelled where they stand (R381). -/
def Shadow.cancel (g : Nat) (gen : BitVec 12) (x : Shadow) : Shadow :=
  { x with
    cores := x.cores.map fun k => (k.1, { k.2 with mx := { k.2.mx with
      queue := k.2.mx.queue.filter fun m => !(m.gid == g && m.gen == gen)
      run := k.2.mx.run.filter fun r => !(r.cmd.gid == g && r.cmd.gen == gen) } })
    cpQ := x.cpQ.filter fun m => !(m.gid == g && m.gen == gen)
    lanes := x.lanes.map fun l => if l.2.cmd.any fun m => m.gid == g && m.gen == gen then (l.1, ⟨none, 0⟩) else l
    gmmaQ := x.gmmaQ.filter fun j => !(j.cmd.gid == g && j.cmd.gen == gen) }

/-- What a context awaits has come: a parked one resumes at its slot's first turn (R179), a displaced one becomes Ready
(R148), one of a swapped partition is told when its partition returns (R102). -/
def State.awaken (s : State) (g : Nat) : State :=
  let c := s.ctx g
  match c.st with
  | .parked =>
    match c.slot with
    | none => s
    | some k =>
      if c.resuming then s
      else (s.setCtx g { c with resuming := true }).post (turnAt k (Nat.max s.cycle c.readyAt) - s.cycle) .parkResume g
  | .cached | .spilled =>
    let s' := s.setCtx g { c with arrived := true }
    if s.swappedOut g then s' else s'.makeReady g rankWoken
  | .swapped | .ready => s.setCtx g { c with arrived := true }
  | _ => s

/-! Instruction fetch (R180 to R184). -/

/-- What a gathering of a bundle's words came to. -/
inductive Gather where
  | words (ws : List Code)
  | missing (a : Nat)
  | trap (t : Trap)
  deriving DecidableEq, Repr

/-- The check of a fetch address before its sector is looked for (R183, R184). -/
def State.fetchCheck (s : State) (g : Nat) (prv : Bool) (a : Word) : Option Trap :=
  if bits a 63 56 ≠ 0 then some (Cause.misaligned, a)
  else if !prv && !Rights.cover (s.plbRights (s.at g) (s.ctx g).domain a) 4 then some (Cause.protection, a)
  else none

/-- Whether the words read so far hold a whole bundle: the word after its last one is no extension (R11). -/
def bundleEnds (ws : List Code) : Bool :=
  match ws with
  | [] => false
  | w :: rest =>
    match Code.cls w, rest with
    | 0, t :: e => decide (Code.cls t ≠ 2) || e.any (fun x => decide (Code.cls x ≠ 3)) || e.length == 3
    | 0, [] => false
    | 1, e => e.any (fun x => decide (Code.cls x ≠ 3)) || e.length == 2
    | _, _ => true

/-- The words of the bundle at a context's PC, read from the instruction cache word by word. DEDUCED, notes/assumptions/12.md. -/
def State.gather (s : State) (g : Nat) (a : Word) : Nat → List Code → Gather
  | 0, ws => .words ws
  | n + 1, ws =>
    if bundleEnds ws then .words ws
    else
      match s.fetchCheck g (s.ctx g).prv a with
      | some t => .trap t
      | none =>
        match cacheFind ((s.ctx g).ufetch ++ (s.core (s.at g)).l1i) a.toNat with
        | none => .missing (a.toNat / 64 * 64)
        | some x => s.gather g (a + 4) n (ws ++ [sectorWord x.data a.toNat])

/-- The hashed path's time from a core to a slice and back: a free value of the core's network port and the slice within R251's range,
the same for every access on the path, so that they keep their order (R245, R354; notes/assumptions/4.md). -/
def pathTime (core slice : Nat) : Nat :=
  170 + Config.freeLatency (2 ^ 40 + clusterOf core * 2 ^ 10 + slice) % 61 + (if slice / Config.slices = dieOfCore core then 0 else 110)

/-- Instruction fills that may leave: at most 8 outstanding (R182); each goes to its home slice's input queue. -/
def State.sendFills (s : State) (core : Nat) : State :=
  let k := s.core core
  let out := (k.ifills.filter (·.sent)).length
  let go := (k.ifills.filter (!·.sent)).take (8 - out)
  let s := s.setCore core { k with ifills := k.ifills.map fun f => if go.contains f then { f with sent := true } else f }
  go.foldl (fun s f =>
    let a := word f.sector
    if bits a 55 46 = Config.moduleNumber then
      let sl := sliceOf (bits a 45 45) (homeOf (bits a 44 0))
      s.post (pathTime core sl / 2) .sliceDataServe sl (f.sector + 1) core
    else s.post 0 .icacheFill core f.sector) s

/-- The missing sector and, if it is absent too, the next sector of its line are requested (R182). -/
def State.requestFill (s : State) (core a : Nat) : State :=
  let want := if a % 256 = 192 then [a] else [a, a + 64]
  let k := s.core core
  let new := want.filter fun x => (cacheFind k.l1i x).isNone && !k.ifills.any (·.sector == x)
  (s.setCore core { k with ifills := k.ifills ++ new.map fun x => ⟨x, false, false, false, none, false⟩ }).sendFills core

/-- Checks 5 and 6 of a transfer's target word (R184). -/
def targetClass (a : Word) (w : Code) : Option Trap :=
  if Code.cls w = 2 ∨ Code.cls w = 3 then some (Cause.badTarget, a)
  else if Code.cls w = 0 ∧ a.toNat % 8 ≠ 0 then some (Cause.misalignedPair, a) else none

/-- A fetch reads the sector that holds an address and the one after it: both lines become the most recently used of their sets
(R180). -/
def State.touchFetch (s : State) (core a : Nat) : State :=
  s.modCore core fun k => { k with l1i := cacheTouch (cacheTouch k.l1i (a + 64)) a }

/-- The fetch of a context's next bundle (R181 to R183); a handler's first bundle is checked as a transfer's target
(R367). On a miss the slot parks with wait reason 9. -/
def State.doFetch (s : State) (g : Nat) : State :=
  let c := s.ctx g
  match s.gather g c.pc 5 [] with
  | .words ws =>
    let f := match if c.vectoring then targetClass c.pc (ws.headD 0) else none with
      | some t => Fetched.failed t.1 t.2
      | none => .words ws
    (s.setCtx g { c with latch := some f, vectoring := false, ufetch := [] }).touchFetch (s.at g) c.pc.toNat
  | .trap t => s.setCtx g { c with latch := some (.failed t.1 t.2) }
  | .missing a =>
    let s := s.setCtx g { c with fills := [a] }
    let s := if c.st = .running ∧ !c.resuming then s.park g .fetchFill else s
    s.requestFill (s.at g) a

/-- The fetch 8 cycles before a slot's first turn at or after a cycle (R181). -/
def State.postFetch (s : State) (g : Nat) (e : Nat) : State :=
  match (s.ctx g).slot with
  | none => s
  | some k => s.post (turnAt k e - 8 - s.cycle) .fetch g

/-! Killing (R381). -/

/-- Whether a context has its kill under way or due. -/
def Ctx.dying (c : Ctx) : Bool := c.kill.isSome || c.async.contains Cause.killed

/-- The kill sequence of one context begins (R381 steps 1 to 3): it issues nothing more, what is parked or held is
abandoned, its generation tag advances and its queued engine commands are cancelled; in shadow storage all of them stand still and end.
Its state stays what it was until the sequence completes, a Ready context's entry in its queue too (R148). KILL_COMPLETE is looked for
until the drains end. -/
def State.startKillOne (s : State) (g cause : Nat) (tval pc : Word) (killer : Nat) : State :=
  let c := s.ctx g
  if c.kill.isSome || c.st = .free then s
  else
    let core := s.at g
    let k := s.core core
    let cl := s.cluster (clusterOf core)
    let mine := fun (gid : Nat) (gen : BitVec 12) => gid == g && gen == c.gen
    let eng := (k.mx.queue.filter fun m => mine m.gid m.gen).length + (cl.cpQueue.filter fun m => mine m.gid m.gen).length
      + (k.mx.run.elim 0 fun r => if mine r.cmd.gid r.cmd.gen then 1 else 0)
      + (if s.swappedOut g then cl.shadow.foldl (fun n x => n + x.commands g c.gen) 0 else 0)
    let s := s.modShadow g (Shadow.cancel g c.gen)
    let s := s.modCore (coreOf g) fun k => { k with gens := mapSet k.gens (numOf g) (c.gen + 1) }
    let k := s.core core
    let s := s.setCore core
      { k with mx := { k.mx with queue := k.mx.queue.filter fun m => !mine m.gid m.gen } }
    let s := s.modCluster (clusterOf core) fun cl => { cl with cpQueue := cl.cpQueue.filter fun m => !mine m.gid m.gen }
    let s := { s with agenda := s.agenda.filter fun x =>
                 !(x.arg.who == g && (decide (x.ev = Instr.fetch) || decide (x.ev = Instr.parkResume) || decide (x.ev = Instr.resultReturn)
                   || decide (x.ev = Instr.waittDeadline) || decide (x.ev = Instr.watchdogExpiry))) }
    let s := s.setCtx g
      { c with
        wait := if c.st = .running ∨ c.st = .ready then .none else .drain
        pend := [], heldTail := none, held := none, transfer := none, trap := none, latch := none, fills := []
        undo := none, ufetch := [], nofetch := [], leaves := false, async := [], resuming := false
        kill := some ⟨cause, tval, pc, killer, eng, 0, 0, c.gen.toNat⟩ }
    s.post 1 .killComplete g

/-- The actions that the comparator holds for a context never take place (R196, R414): their accesses are given up. -/
def State.dropHeld (s : State) (g : Nat) : State :=
  match (s.ctx g).twin with
  | none => s
  | some t =>
    let mine := fun (a : Access) => t.points.any fun h => h.acc == some a.id
    let n := (s.accs.filter fun a => mine a && a.relaxed).length
    let s := s.modCore (s.at g) fun k => { k with relaxed := k.relaxed - n }
    let s := s.modCtx g fun c =>
      { c with
        relaxed := c.relaxed - n
        outstanding := c.outstanding.filter fun id => !t.points.any fun h => h.acc == some id
        twin := some { t with points := [] } }
    { s with accs := s.accs.filter fun a => !mine a }

/-- The kill sequence of a context; of a twin pair, of both (R381). -/
def State.startKill (s : State) (g cause : Nat) (tval pc : Word) (killer : Nat) : State :=
  let s' := (s.dropHeld g).startKillOne g cause tval pc killer
  match (s.ctx g).twin with
  | none => s'
  | some t => (s'.dropHeld t.partner).startKillOne t.partner cause tval (s.ctx t.partner).pc killer

/-! The load-value queue of a pair (R195, R196, R417). -/

/-- The values that a register write counts: one per 64 bits. -/
def valuesOf (ws : List RegWrite) : Nat :=
  ws.foldl (fun n w => n + (match w.reg with | .v _ => 8 | _ => 1)) 0

/-- The values that an entry counts. -/
def QueueKind.values : QueueKind → Nat
  | .load _ ws => valuesOf ws
  | .waiting _ _ n => n
  | .results ws => Nat.max 1 (valuesOf ws)
  | .cause _ _ _ => 1

/-- The values that a load-value queue holds. -/
def lvqValues (q : List QueueVal) : Nat := q.foldl (fun n v => n + v.kind.values) 0

/-- The number of the bundle that a context has in hand: the parked one, or the one in issue. -/
def Ctx.bundleNo (c : Ctx) (t : TwinInfo) : Nat := if c.heldTail.isSome then t.issued - 1 else t.issued

/-- The leader of a pair passes what it received, or the cause it took, to its trailer (R417). -/
def State.passTwin (s : State) (g : Nat) (k : QueueKind) : State :=
  s.modCtx g fun c =>
    match c.twin with
    | some t => if t.leader then { c with twin := some { t with queue := t.queue ++ [⟨c.bundleNo t, k⟩] } } else c
    | none => c

/-- A context of a pair has issued a bundle; after a compare point that the comparator released, a checkpoint is due (R414). -/
def Ctx.countIssue (c : Ctx) (now : Nat) : Ctx :=
  match c.twin with
  | none => c
  | some t =>
    { c with twin := some { t with
        issued := t.issued + 1, issuedAt := now, snapDue := t.snapDue || t.released, released := false, holding := false } }

/-- The twin part changed. -/
def Ctx.modTwin (c : Ctx) (f : TwinInfo → TwinInfo) : Ctx := { c with twin := c.twin.map f }

/-- The registers that an instruction reads as its operands choose: the vector registers that an MXC with SRC = 01 copies (R187, R314). -/
def Ctx.impliedReads (c : Ctx) : Instr → List RegName
  | .mxc _ a =>
    let w := c.getS (SReg.next a.first 1)
    if bits w 58 57 = 1 then (List.range (16 - bits w 3 0)).map fun k => .v (Fin.ofNat 16 (bits w 3 0 + k)) else []
  | _ => []

/-- What a compare point sends besides its registers: the formats and scale that an engine's command, a bank conversion, SPAWN and FORK
take with them, and what else a new context inherits (R149, R165, R273, R314). -/
def Ctx.sent (c : Ctx) : Instr → List Nat
  | .mxc _ _ | .cpc _ _ | .bkcvt _ => [c.tfmt.toNat, c.tscale.toNat]
  | .spawn _ _ _ | .fork _ _ _ =>
    [c.tfmt.toNat, c.tscale.toNat, c.prio.toNat, c.pre.toNat, c.domain.toNat, c.packet.getD 0xFFFFFFFF]
  | _ => []

/-- The operands that the comparator sees: the registers that the C-side word reads, and what else its action sends (R414). -/
def Ctx.operands (c : Ctx) (i : Instr) : List Nat :=
  ((i.reads ++ c.impliedReads i).map fun r => match r with
    | .s x => (c.getS x).toNat
    | .v x => (c.getV x).toNat
    | .m x => (c.getM x).toNat) ++ c.sent i

/-- The recorded cause that is raised first. -/
def Ctx.recorded (c : Ctx) : Recorded := ⟨c.rcause, c.rtval, c.rid, c.raddr⟩

/-- The recorded causes of a context, the one that is raised first at the head. -/
def Ctx.records (c : Ctx) : List Recorded := if c.rcause = 0 then [] else c.recorded :: c.rnext

/-- What a checkpoint takes of a context: its image (R161, R413). -/
def Ctx.snapshot (c : Ctx) : Checkpoint :=
  ⟨c.s, c.v, c.m, c.pc,
    [c.tfmt.setWidth 64, c.tscale.setWidth 64, c.gtol.setWidth 64, c.trappc.setWidth 64, c.tcause.setWidth 64, c.tval,
     c.tvecU.setWidth 64, c.tvecS.setWidth 64, c.tdeleg.setWidth 64, c.tsave[0], c.tsave[1], c.tsave[2], c.tsave[3],
     word (c.prv.toNat + 2 * c.uh.toNat + 4 * c.sh.toNat + 8 * c.pprv.toNat + 16 * c.puh.toNat + 32 * c.pre.toNat + 64 * c.wake.toNat
       + 128 * c.eerr.toNat),
     c.domain.setWidth 64, c.prio.setWidth 64, c.tquant.setWidth 64, c.wlimit.setWidth 64], c.records, c.touch, c.wcount⟩

/-- A long result that is on its way, as if it had returned. -/
def Ctx.settled (c : Ctx) : Ctx :=
  c.setRegs (c.pend.filterMap fun p => match p.src with | .result _ v => some ⟨p.reg, v⟩ | .load _ => none)

/-- A checkpoint that is due is taken, and the leader's image after a compare point that is still held: as they stand before the next
bundle (R413, R414). -/
def TwinInfo.snap (t : TwinInfo) (k : Checkpoint) : TwinInfo :=
  let t := if t.snapDue then { t with checkpoint := k, base := t.issued, snapDue := false } else t
  { t with points := t.points.map fun h => if h.image = none then { h with image := some (k, t.issued) } else h }

/-- The images that are due are taken (R413). -/
def Ctx.checkpointed (c : Ctx) : Ctx :=
  match c.twin with
  | none => c
  | some t => { c with twin := some (t.snap c.settled.snapshot) }

/-! Taking a trap (R366, R367). -/

/-- The user handler takes the cause (R366). -/
def Ctx.toUser (c : Ctx) (cause : Nat) : Bool := !c.sh && !c.uh && !c.prv && c.tdeleg.getLsbD cause && c.tvecU != 0

/-- The trap escalates from a user handler (R366). -/
def Ctx.escalates (c : Ctx) : Bool := c.uh && !c.sh

/-- No handler can take the cause: the kill sequence (R366). -/
def Ctx.noHandler (c : Ctx) (cause : Nat) : Bool := c.sh || (!c.toUser cause && c.tvecS == 0)

/-- TCAUSE of a trap (R369). -/
def tcauseOf (r : TrapReq) (esc dlg : Bool) : BitVec 11 :=
  BitVec.ofNat 11 (r.cause + (if r.late then 256 else 0) + (if esc then 512 else 0) + (if dlg then 1024 else 0))

/-- The effect of trap entry on a context (R367). -/
def Ctx.enterTrap (c : Ctx) (r : TrapReq) (now : Nat) : Ctx :=
  let user := c.toUser r.cause
  { c with
    trappc := r.pc.setWidth 57
    tcause := tcauseOf r c.escalates user
    tval := r.tval
    pprv := c.prv
    puh := c.uh
    uh := user || c.uh
    sh := !user || c.sh
    prv := !user || c.prv
    pc := (if user then c.tvecU else c.tvecS).setWidth 64 + word (64 * r.cause)
    st := .running
    wait := .none
    trap := none
    latch := none
    vectoring := true
    readyAt := Nat.max now (r.at_ + 32) }

/-- The handler is entered; its first bundle is fetched 8 cycles before its turn (R181, R367). -/
def State.enterTrap (s : State) (g : Nat) (r : TrapReq) : State :=
  let c := (s.ctx g).enterTrap r s.cycle
  (s.setCtx g c).postFetch g c.readyAt

/-- A trap whose registers have returned (R188): an escalating one waits for its log record (R367). -/
def State.continueTrap (s : State) (g : Nat) (r : TrapReq) : State :=
  if (s.ctx g).escalates then
    ((s.modCtx g fun c => { c with trap := some r }).park g .escalation).post 64 .escalationLogged g
  else s.enterTrap g r

/-- A cause is taken (R366, R367): the kill sequence, or the park until no register is pending and then the handler; a context that
has left its slot takes it when it has one again. -/
def State.beginTrap (s : State) (g : Nat) (r : TrapReq) : State :=
  let c := (s.ctx g).checkpointed
  if Cause.fatal r.cause || c.noHandler r.cause then s.startKill g r.cause r.tval r.pc 0xFFFFFFFF
  else
    let s := s.setCtx g { c with latch := none, fills := [], marker := false, transfer := none, held := none
                                 undo := none, ufetch := [], nofetch := [], heldTail := none, resuming := false, wait := .none }
    if c.st ≠ .running ∧ c.st ≠ .parked then (s.modCtx g fun c => { c with trap := some r, wait := .handler }).awaken g
    else if c.pend = [] then s.continueTrap g r
    else (s.modCtx g fun c => { c with trap := some r }).park g .handler

/-- A precise cause of the bundle at a context's PC: nothing of it takes effect (R14). The leader of a pair tells the trailer,
which takes it at the same bundle (R418). `at_` is the cycle of the bundle's turn. -/
def State.raiseFrom (s : State) (g : Nat) (t : Trap) (at_ : Nat) : State :=
  let s := s.passTwin g (.cause t.1 t.2 false)
  let s := s.modCtx g fun c => { c with twin := c.twin.map fun x => { x with released := false, holding := false } }
  s.beginTrap g ⟨t.1, t.2, (s.ctx g).pc, false, at_⟩

/-- A precise cause raised now. -/
def State.raiseAt (s : State) (g : Nat) (t : Trap) : State := s.raiseFrom g t s.cycle

/-- A precise cause of the bundle in issue. -/
def State.raise (s : State) (t : Trap) : State := s.raiseAt s.cur t

/-! Recorded causes (R190). -/

/-- A recorded cause in the first place. -/
def Ctx.setRecorded (c : Ctx) (r : Recorded) : Ctx := { c with rcause := r.cause, rtval := r.tval, rid := r.rid, raddr := r.addr }

/-- Of two records of one kind the earlier access's stands, of one access the lower request's, else the first (R78, R190, R260). -/
def Recorded.over (new old : Recorded) : Bool := new.rid != 0 && old.rid != 0 && decide (new.rid < old.rid)

/-- A recorded ENGINE_ERROR carries the engine's own cause, which may be fatal (R190, R280). -/
def Recorded.engineCause (r : Recorded) : Nat := if r.cause.toNat = Cause.engineError then bits r.tval 39 32 else 0

/-- A record that starts the kill sequence when it is raised: a relaxed access's TRANSLATION, an engine's TRANSLATION or poison (R78,
R280, R411). -/
def Recorded.fatal (r : Recorded) : Bool :=
  r.cause.toNat == Cause.translation || r.engineCause == Cause.translation || r.engineCause == Cause.parityKill

/-- Two records of which one stands: of one access, or of one kind. -/
def Recorded.rivals (r x : Recorded) : Bool :=
  (r.rid != 0 && x.rid != 0 && r.rid / 4096 == x.rid / 4096) || (r.cause == x.cause && r.fatal == x.fatal)

/-- A record among others: in the place of a rival that it precedes, not at all behind one that it does not; a fatal one first, any
other last. -/
def insertRecorded (r : Recorded) (rs : List Recorded) : List Recorded :=
  if rs.any fun x => r.rivals x && !r.over x then rs
  else if rs.any r.rivals then (rs.map fun x => if r.rivals x then r else x).eraseDups
  else if r.fatal then r :: rs else rs ++ [r]

/-- A context with these recorded causes. -/
def Ctx.withRecords (c : Ctx) : List Recorded → Ctx
  | [] => { c with rcause := 0, rtval := 0, rnext := [] }
  | r :: rs => { c.setRecorded r with rnext := rs }

/-- A cause reported after issue is recorded (R190). Causes of different kinds are all kept, to be raised at one occasion each, the
fatal ones first and the others in the order of their reports. DESIGN CHOICE, notes/assumptions/58.md. -/
def Ctx.record (c : Ctx) (r : Recorded) : Ctx := c.withRecords (insertRecorded r c.records)

/-- The first recorded cause is taken off, and the next one stands in its place. -/
def Ctx.dropRecorded (c : Ctx) : Ctx := c.withRecords c.rnext

/-- A cause that a context has recorded. -/
def Ctx.hasRecorded (c : Ctx) (cause : Nat) : Bool := c.rcause.toNat == cause || c.rnext.any fun r => r.cause.toNat == cause

/-- The record of a cause brought to the first place. -/
def Ctx.promote (c : Ctx) (cause : Nat) : Ctx :=
  if c.rcause.toNat = cause then c
  else
    match c.rnext.find? fun r => r.cause.toNat == cause with
    | none => c
    | some r => { c.setRecorded r with rnext := c.recorded :: c.rnext.erase r }

/-- The recorded cause of a context is raised, at a turn of cycle `at_`; TRAPPC receives the next bundle's address (R190). A recorded
ENGINE_ERROR of TRANSLATION or poison is fatal and carries the engine's own cause (R280). -/
def State.raiseRecordedFrom (s : State) (g at_ : Nat) : State :=
  let c := s.ctx g
  if c.rcause = 0 then s
  else
    let e := c.recorded.engineCause
    let cause := if e = Cause.translation ∨ e = Cause.parityKill then e else c.rcause.toNat
    let tval := if cause = c.rcause.toNat then c.rtval else c.raddr
    (s.setCtx g c.dropRecorded).beginTrap g ⟨cause, tval, c.pc, true, at_⟩

/-- The recorded cause of a context is raised now. -/
def State.raiseRecorded (s : State) (g : Nat) : State := s.raiseRecordedFrom g s.cycle

/-- A cause recorded for a context, and for the other one of its pair (R418). -/
def State.recordBoth (s : State) (g : Nat) (r : Recorded) : State :=
  match (s.ctx g).twin with
  | none => s.modCtx g fun c => c.record r
  | some t => (s.modCtx g fun c => c.record r).modCtx t.partner fun c => c.record r

/-- An engine's failure: the sticky flag is set, and ENGINE_ERROR recorded with its TVAL and the failing address (R190, R280,
R323). -/
def State.recordEngine (s : State) (g : Nat) (tval addr : Word) : State :=
  let one := fun (c : Ctx) => { c.record ⟨BitVec.ofNat 8 Cause.engineError, tval, 0, addr⟩ with eerr := true }
  match (s.ctx g).twin with
  | none => s.modCtx g one
  | some t => (s.modCtx g one).modCtx t.partner one

/-- The recorded TRANSLATION or OBJ_STORE of an access, found by the request of a byte of its data (R78, R83, R190, R260). -/
def State.recordAccess (s : State) (g id byte cause : Nat) (tval : Word) : State :=
  s.recordBoth g ⟨BitVec.ofNat 8 cause, tval, 4096 * (id + 1) + byte, 0⟩

/-! Issue and retirement. -/

/-- The lowest pending register among some, scalars first (R187). -/
def Ctx.pendHit (c : Ctx) (rs : List RegName) : Option Nat :=
  (rs.filter fun r => c.pend.any fun p => p.reg == r).map (·.code) |>.min?

/-- PENDING_READ, then PENDING_WRITE, of a bundle (R187). -/
def Ctx.pendingTrap (c : Ctx) (rd wr : List RegName) : Option Trap :=
  match c.pendHit rd with
  | some t => some (Cause.pendingRead, word t)
  | none =>
    match c.pendHit wr with
    | some t => some (Cause.pendingWrite, word t)
    | none => none

/-- The registers a bundle reads: those of both halves. -/
def bundleReads (i : Instr) (t : Option Instr) : List RegName := i.reads ++ (t.elim [] Instr.reads)

/-- The registers a bundle writes. -/
def bundleWrites (i : Instr) (t : Option Instr) : List RegName := i.writes ++ (t.elim [] Instr.writes)

/-- The bundle in issue is one of the leader of a pair. -/
def State.leads (s : State) : Bool := (s.ctx s.cur).twin.any (·.leader)

/-- An effect on a context at a cycle: turn-class writes at once, long ones pending until they return (R186). -/
def Ctx.apply (c : Ctx) (e : Effect) (now : Nat) : Ctx :=
  let c := c.setRegs e.now
  { c with pend := c.pend ++ ((e.later.filter fun x => !x.2.reg.isConst).map fun x =>
      ⟨x.2.reg, .result (now + x.1) x.2.val⟩) }

/-- RESULT_RETURN is put on the agenda for each latency of an effect. -/
def State.postResults (s : State) (g : Nat) (e : Effect) : State :=
  (e.later.map (·.1)).eraseDups.foldl (fun s l => s.post l .resultReturn g) s

/-- The registers that an effect writes. -/
def Effect.regs (e : Effect) : List RegName := e.now.map (·.reg) ++ e.later.map (·.2.reg)

/-- A register's value as the write that puts it back. -/
def Ctx.keep (c : Ctx) (r : RegName) : RegWrite :=
  match r with
  | .s x => setS x (c.getS x)
  | .v x => setV x (c.getV x)
  | .m x => setM x (c.getM x)

/-- The bundle in issue as the replay queue captures it, with the operands it read (R412). -/
def State.capture (s : State) (g : Nat) : ReplayEntry :=
  let c := s.ctx g
  ⟨c.pc, (c.twin.map (·.issued)).getD 0, s.bun, (bundleReads s.bun.op s.bun.tail ++ c.impliedReads s.bun.op).map c.keep,
    bundleWrites s.bun.op s.bun.tail, []⟩

/-- A bundle's results enter the replay queue of the last 8 bundles (R412). -/
def Ctx.noteBundle (c : Ctx) (r : ReplayEntry) (ws : List RegWrite) : Ctx := { c with replay := ({ r with writes := ws } :: c.replay).take 8 }

/-- What a load returned, captured in the bundle's entry (R412). -/
def Ctx.noteLoaded (c : Ctx) (ws : List RegWrite) : Ctx :=
  { c with replay := ws.foldl (fun q w =>
      match q.findIdx? fun x => x.dests.contains w.reg with
      | none => q
      | some i => q.modify i fun x => { x with writes := w :: x.writes }) c.replay }

/-- A bundle's effect and the next PC; the replay queue has its entry (R412). -/
def State.complete (s : State) (g : Nat) (e : Effect) (next : Word) (r : ReplayEntry) : State :=
  let c := s.ctx g
  let c := { ((c.apply e s.cycle).countIssue s.cycle).noteBundle r (e.now ++ e.later.map (·.2)) with
    pc := next, latch := none, nofetch := [], wcount := 0, readyAt := s.cycle + 1 }
  (s.setCtx g c).postResults g e

/-- A bundle's end: its effect, the next PC, the fetch 8 cycles on (R181) and the marker (R189). -/
def State.finish (s : State) (g : Nat) (e : Effect) (next : Word) (marker : Bool) : State :=
  let s := (s.complete g e next (s.capture g)).post 8 .fetch g
  let c := s.ctx g
  if !marker then s
  else if c.pend = [] then s.raiseRecorded g
  else (s.modCtx g fun c => { c with marker := true }).park g .regs

/-- The address after the bundle in issue (R15). -/
def State.nextPc (s : State) : Word := (s.ctx s.cur).pc + word (4 * s.blen)

/-- The bundle in issue completes, and the next one follows it. -/
def State.retire (s : State) (e : Effect) : State := s.finish s.cur e s.nextPc s.bun.marker

/-- The bundle in issue is under way: the slot parks, its tail's effect held, the marker to follow (R94, R189). -/
def State.retireParked (s : State) (e : Effect) (w : Wait) : State :=
  let c := s.ctx s.cur
  let c := c.countIssue s.cycle
  ((s.setCtx s.cur
    { c with heldPc := c.pc, pc := s.nextPc, latch := none, wcount := 0, heldTail := some e, marker := s.bun.marker
             readyAt := s.cycle + 1, inHand := some (s.capture s.cur) }).post 8 .fetch s.cur).park s.cur w

/-- The bundle in issue does not issue yet: the slot parks and the same bundle issues at its turn after the event
(R192, R193, R282, R320, R344). -/
def State.holdIssue (s : State) (w : Wait) : State :=
  (s.modCtx s.cur fun c => { c with readyAt := s.cycle + 1 }).park s.cur w

/-- The results of a bundle passed to the trailer (R417). -/
def State.passWrites (s : State) (g : Nat) (ws : List RegWrite) : State := s.passTwin g (.results ws)

/-- A turn-class C-side bundle with results of its own: they pass to the trailer, and the bundle completes. -/
def State.retireRes (s : State) (ws : List RegWrite) (e : Effect) : State :=
  (s.passWrites s.cur ws).retire (Effect.join (Effect.turn ws) e)

/-- The bundle in issue completes and then parks its slot; the marker follows (R386). -/
def State.retireThenPark (s : State) (e : Effect) (w : Wait) : State :=
  ((s.finish s.cur e s.nextPc false).modCtx s.cur fun c => { c with marker := s.bun.marker }).park s.cur w

/-- A parked bundle's results and its held tail take effect together; nothing of them passes to a trailer. -/
def State.applyOwn (s : State) (g : Nat) (ws : List RegWrite) : State :=
  let c := s.ctx g
  let e := Effect.join (Effect.turn ws) (c.heldTail.getD Effect.none)
  let d := c.apply e s.cycle
  let d := (c.inHand.map fun r => d.noteBundle r (e.now ++ e.later.map (·.2))).getD d
  (s.setCtx g { d with heldTail := none, held := none, answer := none, inHand := none }).postResults g e

/-- A parked bundle's results, passed to the trailer of a pair (R417), and its held tail take effect together. -/
def State.applyHeld (s : State) (g : Nat) (ws : List RegWrite) : State := (s.passWrites g ws).applyOwn g ws

/-- A parked bundle completes, and its slot resumes. -/
def State.completeHeld (s : State) (g : Nat) (ws : List RegWrite) : State := (s.applyHeld g ws).awaken g

/-- A parked bundle is refused: neither half takes effect, it has not been issued, and the cause is precise at it (R94). -/
def State.refuseHeld (s : State) (g : Nat) (t : Trap) : State :=
  let s := s.passTwin g (.cause t.1 t.2 false)
  let c := s.ctx g
  let s := s.setCtx g
    { c with pc := c.heldPc, heldTail := none, latch := none, twin := c.twin.map fun t => { t with issued := t.issued - 1 } }
  s.beginTrap g ⟨t.1, t.2, c.heldPc, false, s.cycle⟩

/-- A fatal cause has reached a context (R365): a running one takes it at its next turn, a parked one, or one that is yet to resume, at
its slot's next turn, any other at once. -/
def State.postAsync (s : State) (g : Nat) : State :=
  let c := s.ctx g
  if c.st = .running ∧ !c.resuming then s
  else
    match c.slot with
    | some k => if c.st = .swapped then s.post 0 .asyncCauseTaken g else s.post (turnAt k s.cycle - s.cycle) .asyncCauseTaken g
    | none => s.post 0 .asyncCauseTaken g

/-- A fatal cause reaches a context (R365); KILLED carries no TVAL (R382). -/
def State.sendFatal (s : State) (g cause : Nat) (tval : Word) (killer : Nat) : State :=
  let c := s.ctx g
  if c.st = .free ∨ c.kill.isSome then s
  else
    (s.setCtx g
      { c with
        async := if c.async.contains cause then c.async else cause :: c.async
        fatalTval := if cause = Cause.killed then c.fatalTval else tval
        killer := if cause = Cause.killed then killer else c.killer }).postAsync g

/-- PARITY_KILL of a context, at its turn (R365), by an error of an array that holds something of it; TVAL is not stated for these: a free
value. DESIGN CHOICE, notes/assumptions/19.md. -/
def State.parityKill (s : State) (g : Nat) : State :=
  let v := s.freeNat
  if (s.ctx g).st = .free then s else v.2.sendFatal g Cause.parityKill (word v.1) 0xFFFFFFFF

/-- A lone arithmetic word or a two-way check without a tail: the pending check, then the instruction's own causes, then
its effect (R18). -/
def State.issueA (s : State) (i : Instr) (run : Except Trap Effect) : State :=
  match (s.ctx s.cur).pendingTrap i.reads i.writes with
  | some t => s.raise t
  | none =>
    match run with
    | .error t => s.raise t
    | .ok e => s.retire e

/-! Transfers of control (R16, R184). -/

/-- The checks of a transfer's target, in the order of R184, and the sector that misses, if one does; `own` are sectors that were
delivered to the slot alone (R71). -/
def State.checkTarget (s : State) (g : Nat) (own : List Sector) (byReg prv : Bool) (t : Word) : Except Trap (Option Nat) :=
  if bits t 63 56 ≠ 0 then .error (Cause.misaligned, t)
  else if byReg && t.toNat % 4 != 0 then .error (Cause.badTarget, t)
  else
    match s.fetchCheck g prv t with
    | some x => .error x
    | none =>
      match cacheFind (own ++ (s.core (s.at g)).l1i) t.toNat with
      | none => .ok (some (t.toNat / 64 * 64))
      | some x =>
        match targetClass t (sectorWord x.data t.toNat) with
        | some e => .error e
        | none => .ok none

/-- RFT's change of mode (R373). -/
def Ctx.leaveHandler (c : Ctx) : Ctx := { c with prv := c.pprv, uh := c.puh, sh := false, pprv := false, puh := false }

/-- What a transfer in issue will replace. -/
def Ctx.undoOf (c : Ctx) (t : Transfer) (marker : Bool) (now : Nat) : Undo :=
  ⟨t, now, c.pc, t.eff.regs.map c.keep, marker, c.prv, c.uh, c.sh, c.pprv, c.puh, c.wcount, c.replay,
    (c.twin.map (·.issuedAt)).getD 0⟩

/-- The context as it stood before its transfer issued. -/
def Ctx.undone (c : Ctx) (u : Undo) : Ctx :=
  { c.setRegs u.old with
    pend := c.pend.filter fun p => !u.xfer.eff.later.any fun x => x.2.reg == p.reg
    pc := u.pc, prv := u.prv, uh := u.uh, sh := u.sh, pprv := u.pprv, puh := u.puh, wcount := u.wcount, replay := u.replay
    undo := none, latch := none, marker := false
    twin := c.twin.map fun t => { t with issued := t.issued - 1, issuedAt := u.issuedAt } }

/-- The effects of a transfer's bundle, its change of mode and its target (R184, R373). -/
def State.commit (s : State) (g : Nat) (t : Transfer) : State :=
  (if t.rft then s.modCtx g Ctx.leaveHandler else s).complete g t.eff t.target t.entry

/-- A transfer at its turn (R181, R184). Its target is fetched and checked in the slot's fetch cycle, 8 cycles on. Until then the bundle's
effects stand, where nothing of the context reads them, to be undone if the fetch finds a cause or a sector missing; a marker's
recorded cause waits for it. DEDUCED, notes/assumptions/10.md. -/
def State.transfer (s : State) (g : Nat) (t : Transfer) (marker : Bool) : State :=
  let u := (s.ctx g).undoOf t marker s.cycle
  let s := ((s.commit g t).post 8 .fetch g).modCtx g fun c => { c with undo := some u }
  if marker ∧ (s.ctx g).pend ≠ [] then (s.modCtx g fun c => { c with marker := true }).park g .regs else s

/-- A held transfer whose target may have come: it takes place, and its slot resumes once its next bundle is fetched (R179, R184); the
marker follows. -/
def State.resumeTransfer (s : State) (g : Nat) (t : Transfer) : State :=
  let c := s.ctx g
  match s.checkTarget g c.ufetch t.byReg (if t.rft then c.pprv else c.prv) t.target with
  | .error x => (s.modCtx g fun c => { c with transfer := none }).raiseAt g x
  | .ok (some a) => (s.modCtx g fun c => { c with fills := [a] }).requestFill (s.at g) a
  | .ok none =>
    let s := (s.modCtx g fun c => { c with transfer := none }).commit g t
    let s := (s.modCtx g fun c => { c with readyAt := s.cycle }).doFetch g
    if (s.ctx g).fills = [] then s.awaken g else s

/-- The fetch cycle of a transfer: its target is checked. A cause undoes the bundle and is raised at it; so does a sector that is missing,
for which the slot parks with the effects held; a target that passes is fetched (R184). -/
def State.fetchTarget (s : State) (g : Nat) (u : Undo) : State :=
  let c := s.ctx g
  match s.checkTarget g [] u.xfer.byReg (if u.xfer.rft then u.pprv else u.prv) u.xfer.target with
  | .error x => (s.setCtx g (c.undone u)).raiseFrom g x u.at_
  | .ok (some a) =>
    ((s.setCtx g { c.undone u with transfer := some u.xfer, marker := u.marker, fills := [a] }).park g .fetchFill).requestFill (s.at g) a
  | .ok none =>
    let s := (s.setCtx g { c with undo := none }).doFetch g
    if u.marker ∧ (s.ctx g).st = .running ∧ (s.ctx g).rcause ≠ 0 then s.raiseRecordedFrom g u.at_ else s

/-- A slot that may not issue at its turn: its partition halts, or its core is under a lease or absent (R379, R422, R425). -/
def State.stopped (s : State) (core : Nat) : Option Wait :=
  if (s.cluster (clusterOf core)).halted then some (.halted true)
  else if (s.core core).leaseHold || !(s.core core).present then some .lease else none

end Sys2Proof.Machine
end

