-- ==== Sys2Proof/Machine/Scalar.lean ====
section
/-!
DEFINITION. The scalar integer instructions of the A side (spec/08_scalar_instructions.md R199 to R204, R215): for each, its
effect on registers, computed from the registers as they stand before the bundle (R14), and its meaning as a lone word.
-/
namespace Sys2Proof.Machine

/-- The operand of an instruction at width 32 or 64, unsigned (R200). -/
def uval (w32 : Bool) (x : Word) : Nat := if w32 then x.toNat % 2 ^ 32 else x.toNat

/-- The operand, two's complement (R200). -/
def ival (w32 : Bool) (x : Word) : Int := if w32 then sint 32 x.toNat else x.toInt

/-- The operand width. -/
def wid (w32 : Bool) : Nat := if w32 then 32 else 64

/-- The result of width 32 or 64; a 32-bit one is sign-extended from bit 31 (R200). -/
def wres (w32 : Bool) (x : Nat) : Word := if w32 then (BitVec.ofNat 32 x).signExtend 64 else word x

/-- 1 or 0 (R201). -/
def bool01 (b : Bool) : Word := if b then 1 else 0

/-- A turn-class scalar result. -/
def resS (d : SReg) (x : Word) : Effect := Effect.turn [setS d x]

/-- A lone A-side word that cannot trap. -/
def lone (s : State) (i : Instr) (f : Ctx → Effect) : Host.Outcome State Fault Refusal :=
  .next (s.issueA i (.ok (f (s.ctx s.cur))))

/-- NOPA changes no state (R215). -/
def effNopa (_ : Ctx) : Effect := Effect.none

/-- NOPA as a lone word. -/
def execNopa (s : State) : Host.Outcome State Fault Refusal :=
  lone s .nopa effNopa

/-- ADD: s_a + s_b, modulo 2^w (R201). -/
def effAdd (w32 : Bool) (d : SReg) (a : SReg) (b : SReg) (c : Ctx) : Effect := resS d (wres w32 (uval w32 (c.getS a + c.getS b)))

/-- ADD as a lone word. -/
def execAdd (w32 : Bool) (d : SReg) (a : SReg) (b : SReg) (s : State) : Host.Outcome State Fault Refusal :=
  lone s (.add w32 d a b) (effAdd w32 d a b)

/-- SUB: s_a − s_b, modulo 2^w (R201). -/
def effSub (w32 : Bool) (d : SReg) (a : SReg) (b : SReg) (c : Ctx) : Effect := resS d (wres w32 (uval w32 (c.getS a - c.getS b)))

/-- SUB as a lone word. -/
def execSub (w32 : Bool) (d : SReg) (a : SReg) (b : SReg) (s : State) : Host.Outcome State Fault Refusal :=
  lone s (.sub w32 d a b) (effSub w32 d a b)

/-- AND (R201). -/
def effAnd (d : SReg) (a : SReg) (b : SReg) (c : Ctx) : Effect := resS d (c.getS a &&& c.getS b)

/-- AND as a lone word. -/
def execAnd (d : SReg) (a : SReg) (b : SReg) (s : State) : Host.Outcome State Fault Refusal :=
  lone s (.and d a b) (effAnd d a b)

/-- OR (R201). -/
def effOr (d : SReg) (a : SReg) (b : SReg) (c : Ctx) : Effect := resS d (c.getS a ||| c.getS b)

/-- OR as a lone word. -/
def execOr (d : SReg) (a : SReg) (b : SReg) (s : State) : Host.Outcome State Fault Refusal :=
  lone s (.or d a b) (effOr d a b)

/-- XOR (R201). -/
def effXor (d : SReg) (a : SReg) (b : SReg) (c : Ctx) : Effect := resS d (c.getS a ^^^ c.getS b)

/-- XOR as a lone word. -/
def execXor (d : SReg) (a : SReg) (b : SReg) (s : State) : Host.Outcome State Fault Refusal :=
  lone s (.xor d a b) (effXor d a b)

/-- ANDN: s_a AND NOT s_b (R201). -/
def effAndn (d : SReg) (a : SReg) (b : SReg) (c : Ctx) : Effect := resS d (c.getS a &&& ~~~(c.getS b))

/-- ANDN as a lone word. -/
def execAndn (d : SReg) (a : SReg) (b : SReg) (s : State) : Host.Outcome State Fault Refusal :=
  lone s (.andn d a b) (effAndn d a b)

/-- SHL: the amount is taken modulo 64 (R201, R58). -/
def effShl (d : SReg) (a : SReg) (b : SReg) (c : Ctx) : Effect := resS d (c.getS a <<< ((c.getS b).toNat % 64))

/-- SHL as a lone word. -/
def execShl (d : SReg) (a : SReg) (b : SReg) (s : State) : Host.Outcome State Fault Refusal :=
  lone s (.shl d a b) (effShl d a b)

/-- SHR: zeros shifted in (R201). -/
def effShr (d : SReg) (a : SReg) (b : SReg) (c : Ctx) : Effect := resS d (c.getS a >>> ((c.getS b).toNat % 64))

/-- SHR as a lone word. -/
def execShr (d : SReg) (a : SReg) (b : SReg) (s : State) : Host.Outcome State Fault Refusal :=
  lone s (.shr d a b) (effShr d a b)

/-- SRA: the sign bit shifted in (R201). -/
def effSra (d : SReg) (a : SReg) (b : SReg) (c : Ctx) : Effect := resS d ((c.getS a).sshiftRight ((c.getS b).toNat % 64))

/-- SRA as a lone word. -/
def execSra (d : SReg) (a : SReg) (b : SReg) (s : State) : Host.Outcome State Fault Refusal :=
  lone s (.sra d a b) (effSra d a b)

/-- MUL: the low w bits of the product (R201). -/
def effMul (w32 : Bool) (d : SReg) (a : SReg) (b : SReg) (c : Ctx) : Effect := resS d (wres w32 (uval w32 (c.getS a * c.getS b)))

/-- MUL as a lone word. -/
def execMul (w32 : Bool) (d : SReg) (a : SReg) (b : SReg) (s : State) : Host.Outcome State Fault Refusal :=
  lone s (.mul w32 d a b) (effMul w32 d a b)

/-- MULH: bits [127:64] of the signed product (R201). -/
def effMulh (d : SReg) (a : SReg) (b : SReg) (c : Ctx) : Effect := resS d (BitVec.ofInt 64 ((c.getS a).toInt * (c.getS b).toInt / 2 ^ 64))

/-- MULH as a lone word. -/
def execMulh (d : SReg) (a : SReg) (b : SReg) (s : State) : Host.Outcome State Fault Refusal :=
  lone s (.mulh d a b) (effMulh d a b)

/-- MULHU: bits [127:64] of the unsigned product (R201). -/
def effMulhu (d : SReg) (a : SReg) (b : SReg) (c : Ctx) : Effect := resS d (word ((c.getS a).toNat * (c.getS b).toNat / 2 ^ 64))

/-- MULHU as a lone word. -/
def execMulhu (d : SReg) (a : SReg) (b : SReg) (s : State) : Host.Outcome State Fault Refusal :=
  lone s (.mulhu d a b) (effMulhu d a b)

/-- DIV: rounded towards zero; by zero all ones (R201, R58). Long, latency 36. -/
def effDiv (w32 : Bool) (d : SReg) (a : SReg) (b : SReg) (c : Ctx) : Effect := 
  Effect.long 36 [setS d (wres w32 (divS (wid w32) (ival w32 (c.getS a)) (ival w32 (c.getS b))))]

/-- DIV as a lone word. -/
def execDiv (w32 : Bool) (d : SReg) (a : SReg) (b : SReg) (s : State) : Host.Outcome State Fault Refusal :=
  lone s (.div w32 d a b) (effDiv w32 d a b)

/-- DIVU: rounded down; by zero all ones (R201, R58). Long, latency 36. -/
def effDivu (w32 : Bool) (d : SReg) (a : SReg) (b : SReg) (c : Ctx) : Effect := 
  Effect.long 36 [setS d (wres w32 (divU (wid w32) (uval w32 (c.getS a)) (uval w32 (c.getS b))))]

/-- DIVU as a lone word. -/
def execDivu (w32 : Bool) (d : SReg) (a : SReg) (b : SReg) (s : State) : Host.Outcome State Fault Refusal :=
  lone s (.divu w32 d a b) (effDivu w32 d a b)

/-- REM: the sign of the dividend; by zero the dividend (R201, R58). Long, latency 36. -/
def effRem (w32 : Bool) (d : SReg) (a : SReg) (b : SReg) (c : Ctx) : Effect := 
  Effect.long 36 [setS d (wres w32 (remS (wid w32) (ival w32 (c.getS a)) (ival w32 (c.getS b))))]

/-- REM as a lone word. -/
def execRem (w32 : Bool) (d : SReg) (a : SReg) (b : SReg) (s : State) : Host.Outcome State Fault Refusal :=
  lone s (.rem w32 d a b) (effRem w32 d a b)

/-- REMU: by zero the dividend (R201, R58). Long, latency 36. -/
def effRemu (w32 : Bool) (d : SReg) (a : SReg) (b : SReg) (c : Ctx) : Effect := 
  Effect.long 36 [setS d (wres w32 (remU (uval w32 (c.getS a)) (uval w32 (c.getS b))))]

/-- REMU as a lone word. -/
def execRemu (w32 : Bool) (d : SReg) (a : SReg) (b : SReg) (s : State) : Host.Outcome State Fault Refusal :=
  lone s (.remu w32 d a b) (effRemu w32 d a b)

/-- MIN: the smaller of the signed operands (R201). -/
def effMin (d : SReg) (a : SReg) (b : SReg) (c : Ctx) : Effect := resS d (if (c.getS b).slt (c.getS a) then c.getS b else c.getS a)

/-- MIN as a lone word. -/
def execMin (d : SReg) (a : SReg) (b : SReg) (s : State) : Host.Outcome State Fault Refusal :=
  lone s (.min d a b) (effMin d a b)

/-- MAX: the larger of the signed operands (R201). -/
def effMax (d : SReg) (a : SReg) (b : SReg) (c : Ctx) : Effect := resS d (if (c.getS a).slt (c.getS b) then c.getS b else c.getS a)

/-- MAX as a lone word. -/
def execMax (d : SReg) (a : SReg) (b : SReg) (s : State) : Host.Outcome State Fault Refusal :=
  lone s (.max d a b) (effMax d a b)

/-- MINU: the smaller of the unsigned operands (R201). -/
def effMinu (d : SReg) (a : SReg) (b : SReg) (c : Ctx) : Effect := resS d (if (c.getS b).ult (c.getS a) then c.getS b else c.getS a)

/-- MINU as a lone word. -/
def execMinu (d : SReg) (a : SReg) (b : SReg) (s : State) : Host.Outcome State Fault Refusal :=
  lone s (.minu d a b) (effMinu d a b)

/-- MAXU: the larger of the unsigned operands (R201). -/
def effMaxu (d : SReg) (a : SReg) (b : SReg) (c : Ctx) : Effect := resS d (if (c.getS a).ult (c.getS b) then c.getS b else c.getS a)

/-- MAXU as a lone word. -/
def execMaxu (d : SReg) (a : SReg) (b : SReg) (s : State) : Host.Outcome State Fault Refusal :=
  lone s (.maxu d a b) (effMaxu d a b)

/-- CMPEQ: 1 if s_a = s_b, else 0 (R201). -/
def effCmpeq (d : SReg) (a : SReg) (b : SReg) (c : Ctx) : Effect := resS d (bool01 (c.getS a == c.getS b))

/-- CMPEQ as a lone word. -/
def execCmpeq (d : SReg) (a : SReg) (b : SReg) (s : State) : Host.Outcome State Fault Refusal :=
  lone s (.cmpeq d a b) (effCmpeq d a b)

/-- CMPNE: 1 if s_a ≠ s_b, else 0 (R201). -/
def effCmpne (d : SReg) (a : SReg) (b : SReg) (c : Ctx) : Effect := resS d (bool01 (c.getS a != c.getS b))

/-- CMPNE as a lone word. -/
def execCmpne (d : SReg) (a : SReg) (b : SReg) (s : State) : Host.Outcome State Fault Refusal :=
  lone s (.cmpne d a b) (effCmpne d a b)

/-- CMPLT: 1 if i(s_a) < i(s_b), else 0 (R201). -/
def effCmplt (d : SReg) (a : SReg) (b : SReg) (c : Ctx) : Effect := resS d (bool01 ((c.getS a).slt (c.getS b)))

/-- CMPLT as a lone word. -/
def execCmplt (d : SReg) (a : SReg) (b : SReg) (s : State) : Host.Outcome State Fault Refusal :=
  lone s (.cmplt d a b) (effCmplt d a b)

/-- CMPLTU: 1 if u(s_a) < u(s_b), else 0 (R201). -/
def effCmpltu (d : SReg) (a : SReg) (b : SReg) (c : Ctx) : Effect := resS d (bool01 ((c.getS a).ult (c.getS b)))

/-- CMPLTU as a lone word. -/
def execCmpltu (d : SReg) (a : SReg) (b : SReg) (s : State) : Host.Outcome State Fault Refusal :=
  lone s (.cmpltu d a b) (effCmpltu d a b)

/-- CMPLE: 1 if i(s_a) ≤ i(s_b), else 0 (R201). -/
def effCmple (d : SReg) (a : SReg) (b : SReg) (c : Ctx) : Effect := resS d (bool01 ((c.getS a).sle (c.getS b)))

/-- CMPLE as a lone word. -/
def execCmple (d : SReg) (a : SReg) (b : SReg) (s : State) : Host.Outcome State Fault Refusal :=
  lone s (.cmple d a b) (effCmple d a b)

/-- CMPLEU: 1 if u(s_a) ≤ u(s_b), else 0 (R201). -/
def effCmpleu (d : SReg) (a : SReg) (b : SReg) (c : Ctx) : Effect := resS d (bool01 ((c.getS a).ule (c.getS b)))

/-- CMPLEU as a lone word. -/
def execCmpleu (d : SReg) (a : SReg) (b : SReg) (s : State) : Host.Outcome State Fault Refusal :=
  lone s (.cmpleu d a b) (effCmpleu d a b)

/-- SEL: s_a if s_c ≠ 0, else s_b; `e` is the field c (R201). -/
def effSel (d : SReg) (a : SReg) (b : SReg) (e : SReg) (c : Ctx) : Effect := resS d (if c.getS e != 0 then c.getS a else c.getS b)

/-- SEL as a lone word. -/
def execSel (d : SReg) (a : SReg) (b : SReg) (e : SReg) (s : State) : Host.Outcome State Fault Refusal :=
  lone s (.sel d a b e) (effSel d a b e)

/-- CLZ: leading zero bits, 64 for 0 (R201). -/
def effClz (d : SReg) (a : SReg) (c : Ctx) : Effect := resS d (word (clz64 (c.getS a).toNat))

/-- CLZ as a lone word. -/
def execClz (d : SReg) (a : SReg) (s : State) : Host.Outcome State Fault Refusal :=
  lone s (.clz d a) (effClz d a)

/-- CTZ: trailing zero bits, 64 for 0 (R201). -/
def effCtz (d : SReg) (a : SReg) (c : Ctx) : Effect := resS d (word (ctz64 (c.getS a).toNat))

/-- CTZ as a lone word. -/
def execCtz (d : SReg) (a : SReg) (s : State) : Host.Outcome State Fault Refusal :=
  lone s (.ctz d a) (effCtz d a)

/-- POPC: one bits (R201). -/
def effPopc (d : SReg) (a : SReg) (c : Ctx) : Effect := resS d (word (popc64 (c.getS a).toNat))

/-- POPC as a lone word. -/
def execPopc (d : SReg) (a : SReg) (s : State) : Host.Outcome State Fault Refusal :=
  lone s (.popc d a) (effPopc d a)

/-- BFX: a field of s_a, zero- or sign-extended (R202). -/
def effBfx (d : SReg) (a : SReg) (b : SReg) (sg : Bool) (c : Ctx) : Effect := 
  let f := fieldOf (c.getS b).toNat
  let x := (c.getS a).toNat / 2 ^ f.1 % 2 ^ f.2
  resS d (if sg then BitVec.ofInt 64 (sint f.2 x) else word x)

/-- BFX as a lone word. -/
def execBfx (d : SReg) (a : SReg) (b : SReg) (sg : Bool) (s : State) : Host.Outcome State Fault Refusal :=
  lone s (.bfx d a b sg) (effBfx d a b sg)

/-- BFI: s_d with a field replaced by the low bits of s_a (R202). -/
def effBfi (d : SReg) (a : SReg) (b : SReg) (c : Ctx) : Effect := 
  let f := fieldOf (c.getS b).toNat
  let m := word ((2 ^ f.2 - 1) * 2 ^ f.1)
  resS d ((c.getS d &&& ~~~m) ||| ((c.getS a <<< f.1) &&& m))

/-- BFI as a lone word. -/
def execBfi (d : SReg) (a : SReg) (b : SReg) (s : State) : Host.Outcome State Fault Refusal :=
  lone s (.bfi d a b) (effBfi d a b)

/-- ADDI: s_a + imm (R203). -/
def effAddi (d : SReg) (a : SReg) (imm : Imm11) (c : Ctx) : Effect := resS d (c.getS a + imm.value)

/-- ADDI as a lone word. -/
def execAddi (d : SReg) (a : SReg) (imm : Imm11) (s : State) : Host.Outcome State Fault Refusal :=
  lone s (.addi d a imm) (effAddi d a imm)

/-- ANDI: s_a AND imm (R203). -/
def effAndi (d : SReg) (a : SReg) (imm : Imm11) (c : Ctx) : Effect := resS d (c.getS a &&& imm.value)

/-- ANDI as a lone word. -/
def execAndi (d : SReg) (a : SReg) (imm : Imm11) (s : State) : Host.Outcome State Fault Refusal :=
  lone s (.andi d a imm) (effAndi d a imm)

/-- ORI: s_a OR imm (R203). -/
def effOri (d : SReg) (a : SReg) (imm : Imm11) (c : Ctx) : Effect := resS d (c.getS a ||| imm.value)

/-- ORI as a lone word. -/
def execOri (d : SReg) (a : SReg) (imm : Imm11) (s : State) : Host.Outcome State Fault Refusal :=
  lone s (.ori d a imm) (effOri d a imm)

/-- XORI: s_a XOR imm (R203). -/
def effXori (d : SReg) (a : SReg) (imm : Imm11) (c : Ctx) : Effect := resS d (c.getS a ^^^ imm.value)

/-- XORI as a lone word. -/
def execXori (d : SReg) (a : SReg) (imm : Imm11) (s : State) : Host.Outcome State Fault Refusal :=
  lone s (.xori d a imm) (effXori d a imm)

/-- SHLI: s_a << n (R203). -/
def effShli (d : SReg) (a : SReg) (imm : Imm11) (c : Ctx) : Effect := resS d (c.getS a <<< (imm.value.toNat % 64))

/-- SHLI as a lone word. -/
def execShli (d : SReg) (a : SReg) (imm : Imm11) (s : State) : Host.Outcome State Fault Refusal :=
  lone s (.shli d a imm) (effShli d a imm)

/-- SHRI: u(s_a) >> n (R203). -/
def effShri (d : SReg) (a : SReg) (imm : Imm11) (c : Ctx) : Effect := resS d (c.getS a >>> (imm.value.toNat % 64))

/-- SHRI as a lone word. -/
def execShri (d : SReg) (a : SReg) (imm : Imm11) (s : State) : Host.Outcome State Fault Refusal :=
  lone s (.shri d a imm) (effShri d a imm)

/-- SRAI: i(s_a) >> n (R203). -/
def effSrai (d : SReg) (a : SReg) (imm : Imm11) (c : Ctx) : Effect := resS d ((c.getS a).sshiftRight (imm.value.toNat % 64))

/-- SRAI as a lone word. -/
def execSrai (d : SReg) (a : SReg) (imm : Imm11) (s : State) : Host.Outcome State Fault Refusal :=
  lone s (.srai d a imm) (effSrai d a imm)

/-- CMPEQI: 1 if s_a = imm, else 0 (R203). -/
def effCmpeqi (d : SReg) (a : SReg) (imm : Imm11) (c : Ctx) : Effect := resS d (bool01 (c.getS a == imm.value))

/-- CMPEQI as a lone word. -/
def execCmpeqi (d : SReg) (a : SReg) (imm : Imm11) (s : State) : Host.Outcome State Fault Refusal :=
  lone s (.cmpeqi d a imm) (effCmpeqi d a imm)

/-- CMPLTI: 1 if i(s_a) < imm, else 0 (R203). -/
def effCmplti (d : SReg) (a : SReg) (imm : Imm11) (c : Ctx) : Effect := resS d (bool01 ((c.getS a).slt imm.value))

/-- CMPLTI as a lone word. -/
def execCmplti (d : SReg) (a : SReg) (imm : Imm11) (s : State) : Host.Outcome State Fault Refusal :=
  lone s (.cmplti d a imm) (effCmplti d a imm)

/-- LI: the immediate (R204). -/
def effLi (d : SReg) (imm : Imm16) (_ : Ctx) : Effect := resS d imm.value

/-- LI as a lone word. -/
def execLi (d : SReg) (imm : Imm16) (s : State) : Host.Outcome State Fault Refusal :=
  lone s (.li d imm) (effLi d imm)

/-- LUI: the immediate << 18, modulo 2^64 (R204). -/
def effLui (d : SReg) (imm : Imm16) (_ : Ctx) : Effect := resS d (imm.value <<< 18)

/-- LUI as a lone word. -/
def execLui (d : SReg) (imm : Imm16) (s : State) : Host.Outcome State Fault Refusal :=
  lone s (.lui d imm) (effLui d imm)

end Sys2Proof.Machine
end

