-- ==== Sys2Proof/Machine/Float.lean ====
section
/-!
DEFINITION. The scalar floating-point instructions of the A side (spec/08_scalar_instructions.md R205 to R209).
-/
namespace Sys2Proof.Machine

/-- The FP32 value in bits [31:0] of a scalar register (R30). -/
def Ctx.getF (c : Ctx) (r : SReg) : FpVal := ofF32 (c.getS r).toNat

/-- A turn-class FP32 result: zero in bits [63:32] (R30), rounded RNE (R48). -/
def resF (d : SReg) (v : FpVal) : Effect := resS d (word (toF32 v))

/-- FCVT by kind, rounding mode and saturate flag (R208). -/
def fcvt (k : Nat) (rm : Rnd) (sat : Bool) (x : Word) : Word :=
  match k with
  | 0 => BitVec.ofInt 64 ((ofF32 x.toNat).toInt rm 64)
  | 1 => BitVec.ofInt 64 ((ofF32 x.toNat).toInt rm 32)
  | 2 => word (fp32.encode rm false (.ofInt x.toInt))
  | 3 => word (fp32.encode rm false (.ofInt (sint 32 x.toNat)))
  | 4 => word (bf16.encode rm sat (ofF32 x.toNat))
  | 5 => word (fp32.encode .rne false (bf16.decode x.toNat))
  | 6 => word (fp16.encode rm sat (ofF32 x.toNat))
  | _ => word (fp32.encode .rne false (fp16.decode x.toNat))

/-- FADD: the exact sum, rounded once (R205). -/
def effFadd (d : SReg) (a : SReg) (b : SReg) (c : Ctx) : Effect := resF d ((c.getF a).add (c.getF b))

/-- FADD as a lone word. -/
def execFadd (d : SReg) (a : SReg) (b : SReg) (s : State) : Host.Outcome State Fault Refusal :=
  lone s (.fadd d a b) (effFadd d a b)

/-- FSUB: the exact difference, rounded once (R205). -/
def effFsub (d : SReg) (a : SReg) (b : SReg) (c : Ctx) : Effect := resF d ((c.getF a).add (c.getF b).negate)

/-- FSUB as a lone word. -/
def execFsub (d : SReg) (a : SReg) (b : SReg) (s : State) : Host.Outcome State Fault Refusal :=
  lone s (.fsub d a b) (effFsub d a b)

/-- FMUL: the exact product, rounded once (R205). -/
def effFmul (d : SReg) (a : SReg) (b : SReg) (c : Ctx) : Effect := resF d ((c.getF a).mul (c.getF b))

/-- FMUL as a lone word. -/
def execFmul (d : SReg) (a : SReg) (b : SReg) (s : State) : Host.Outcome State Fault Refusal :=
  lone s (.fmul d a b) (effFmul d a b)

/-- FFMA: a · b + c exactly, rounded once; `e` is the field c (R205). -/
def effFfma (d : SReg) (a : SReg) (b : SReg) (e : SReg) (c : Ctx) : Effect := resF d (((c.getF a).mul (c.getF b)).add (c.getF e))

/-- FFMA as a lone word. -/
def execFfma (d : SReg) (a : SReg) (b : SReg) (e : SReg) (s : State) : Host.Outcome State Fault Refusal :=
  lone s (.ffma d a b e) (effFfma d a b e)

/-- FMIN: −0 below +0; one NaN gives the other operand (R206). -/
def effFmin (d : SReg) (a : SReg) (b : SReg) (c : Ctx) : Effect := 
  resS d (word (fp32.minmax false ((c.getS a).toNat % 2 ^ 32) ((c.getS b).toNat % 2 ^ 32)))

/-- FMIN as a lone word. -/
def execFmin (d : SReg) (a : SReg) (b : SReg) (s : State) : Host.Outcome State Fault Refusal :=
  lone s (.fmin d a b) (effFmin d a b)

/-- FMAX (R206). -/
def effFmax (d : SReg) (a : SReg) (b : SReg) (c : Ctx) : Effect := 
  resS d (word (fp32.minmax true ((c.getS a).toNat % 2 ^ 32) ((c.getS b).toNat % 2 ^ 32)))

/-- FMAX as a lone word. -/
def execFmax (d : SReg) (a : SReg) (b : SReg) (s : State) : Host.Outcome State Fault Refusal :=
  lone s (.fmax d a b) (effFmax d a b)

/-- FDIV: the quotient, correctly rounded (R57, R205). Long, latency 28. -/
def effFdiv (d : SReg) (a : SReg) (b : SReg) (c : Ctx) : Effect := 
  Effect.long 28 [setS d (word (toF32 ((c.getF a).div (c.getF b))))]

/-- FDIV as a lone word. -/
def execFdiv (d : SReg) (a : SReg) (b : SReg) (s : State) : Host.Outcome State Fault Refusal :=
  lone s (.fdiv d a b) (effFdiv d a b)

/-- FSQRT: the square root, correctly rounded (R57, R205). Long, latency 28. -/
def effFsqrt (d : SReg) (a : SReg) (c : Ctx) : Effect := 
  Effect.long 28 [setS d (word (toF32 (c.getF a).sqrt))]

/-- FSQRT as a lone word. -/
def execFsqrt (d : SReg) (a : SReg) (s : State) : Host.Outcome State Fault Refusal :=
  lone s (.fsqrt d a) (effFsqrt d a)

/-- FCMP: 1 or 0 by the predicate (R207). -/
def effFcmp (d : SReg) (a : SReg) (b : SReg) (p : BitVec 3) (c : Ctx) : Effect := resS d (bool01 (fpPredicate p.toNat (c.getF a) (c.getF b)))

/-- FCMP as a lone word. -/
def execFcmp (d : SReg) (a : SReg) (b : SReg) (p : BitVec 3) (s : State) : Host.Outcome State Fault Refusal :=
  lone s (.fcmp d a b p) (effFcmp d a b p)

/-- FCVT (R208). -/
def effFcvt (d : SReg) (a : SReg) (k : BitVec 3) (rm : Rnd) (sat : Bool) (c : Ctx) : Effect := resS d (fcvt k.toNat rm sat (c.getS a))

/-- FCVT as a lone word. -/
def execFcvt (d : SReg) (a : SReg) (k : BitVec 3) (rm : Rnd) (sat : Bool) (s : State) : Host.Outcome State Fault Refusal :=
  lone s (.fcvt d a k rm sat) (effFcvt d a k rm sat)

/-- FCLASS: one bit for the class of s_a[31:0] (R209). -/
def effFclass (d : SReg) (a : SReg) (c : Ctx) : Effect := resS d (word (fclass ((c.getS a).toNat)))

/-- FCLASS as a lone word. -/
def execFclass (d : SReg) (a : SReg) (s : State) : Host.Outcome State Fault Refusal :=
  lone s (.fclass d a) (effFclass d a)

end Sys2Proof.Machine
end

