-- ==== Sys2Proof/Machine/Vector.lean ====
section
/-!
DEFINITION. The vector, mask and unpack instructions of the A side (spec/09_vector_instructions.md R220 to R239).
-/
namespace Sys2Proof.Machine

/-- The floating-point format of a lane type (R220). -/
def laneFmt : LaneType → Option Fmt
  | .f16 => some fp16
  | .bf16 => some bf16
  | .f32 => some fp32
  | _ => none

/-- The format of a lane type for conversions (R233). -/
def laneKind : LaneType → Kind
  | .i8 => .int 8
  | .i16 => .int 16
  | .i32 => .int 32
  | .i64 => .int 64
  | .f16 => .fp fp16
  | .bf16 => .fp bf16
  | .f32 => .fp fp32

/-- The lane type of a code of R220. -/
def laneOfCode : Nat → LaneType
  | 0 => .i8
  | 1 => .i16
  | 2 => .i32
  | 3 => .f16
  | 4 => .bf16
  | 5 => .f32
  | _ => .i64

/-- Lane i of width w (R220). -/
def lane (w : Nat) (v : Vec) (i : Nat) : Nat := (v.extractLsb' (w * i) w).toNat

/-- A vector from its lanes of width w, lane 0 first. -/
def packLanes (w : Nat) : List Nat → Nat
  | [] => 0
  | x :: xs => x % 2 ^ w + 2 ^ w * packLanes w xs

/-- A vector of n lanes by a function of the lane number. -/
def lanesV (w n : Nat) (f : Nat → Nat) : Vec := BitVec.ofNat 512 (packLanes w ((List.range n).map f))

/-- A vector written in its active lanes; the others keep their values (R222). -/
def maskedLanes (ty : LaneType) (mask : Word) (old : Vec) (f : Nat → Nat) : Vec :=
  lanesV ty.width ty.lanes fun i => if mask.getLsbD i then f i else lane ty.width old i

/-- An integer lane result: wrapped, or clamped signed or unsigned by S and U (R225). -/
def intLane (w : Nat) (fn : BitVec 4) (r : Int) : Nat :=
  if !fn.getLsbD 0 then lowBits w r
  else if fn.getLsbD 1 then lowBits w (clamp 0 (2 ^ w - 1) r) else lowBits w (clampS w r)

/-- An integer lane read signed, or unsigned with U (R225). -/
def laneInt (w : Nat) (uns : Bool) (x : Nat) : Int := if uns then (x : Int) else sint w x

/-- A lane-wise instruction of R225: one operation for floating-point lanes, one for integer lanes. -/
def lanewise (o : VArgs) (c : Ctx) (fpOp : Fmt → Nat → Nat → Nat → Nat) (intOp : Nat → Nat → Nat → Nat → Nat) : Effect :=
  let w := o.ty.width
  let x := lane w (c.getV o.va)
  let y := lane w (c.getV o.vb)
  let z := lane w (c.getV o.vd)
  Effect.turn [setV o.vd (maskedLanes o.ty (c.getM o.m) (c.getV o.vd) fun i =>
    match laneFmt o.ty with
    | some f => fpOp f (x i) (y i) (z i)
    | none => intOp w (x i) (y i) (z i))]

/-- An arithmetic result in a lane format: RNE, no saturation (R223). -/
def Fmt.lane (f : Fmt) (v : FpVal) : Nat := f.encode .rne false v

/-- The mask bits of lanes for which a predicate holds; bits at or above n are 0 (R221). -/
def maskOf (n : Nat) (p : Nat → Bool) : Word :=
  word ((List.range n).foldl (fun m i => if p i then m + 2 ^ i else m) 0)

/-- The active lanes of a vector. -/
def activeLanes (ty : LaneType) (mask : Word) (v : Vec) : List Nat :=
  ((List.range ty.lanes).filter fun i => mask.getLsbD i).map (lane ty.width v)

/-- VCMP's predicate (R226). -/
def vcmpHolds (ty : LaneType) (p : Nat) (x y : Nat) : Bool :=
  match laneFmt ty with
  | some f => fpPredicate p (f.decode x) (f.decode y)
  | none =>
    match p with
    | 0 => x == y
    | 1 => decide (sint ty.width x < sint ty.width y)
    | 2 => decide (sint ty.width x ≤ sint ty.width y)
    | 4 => x != y
    | 5 => decide (x < y)
    | 6 => decide (x ≤ y)
    | _ => false

/-- INT4 element j of a vector (R52). -/
def int4At (v : Vec) (j : Nat) : Int := sint 4 (v.extractLsb' (4 * j) 4).toNat

/-- INT3 element j of a vector (R52). -/
def int3At (v : Vec) (j : Nat) : Int := sint 3 (v.extractLsb' (24 * (j / 8) + 3 * (j % 8)) 3).toNat

/-- A rounding mode by its code (R47). -/
def rndOfCode : Nat → Rnd
  | 0 => .rne
  | 1 => .rtz
  | 2 => .rdn
  | _ => .rup

/-- The larger of two codes of a reduction. -/
def redMax (ty : LaneType) (uns : Bool) (x y : Nat) : Nat :=
  match laneFmt ty with
  | some _ => fp32.minmax true x y
  | none => if laneInt ty.width uns x < laneInt ty.width uns y then y else x

/-- VADD (R225). -/
def effVadd (o : VArgs) (c : Ctx) : Effect :=
  lanewise o c (fun f x y _ => f.lane ((f.decode x).add (f.decode y)))
    (fun w x y _ => let u := o.fn.getLsbD 1; intLane w o.fn (laneInt w u x + laneInt w u y))

/-- VADD as a lone word. -/
def execVadd (o : VArgs) (s : State) : Host.Outcome State Fault Refusal := lone s (.vadd o) (effVadd o)

/-- VSUB; with U the operands are read unsigned, as VADD's row says of it (R225). DEDUCED, notes/assumptions/68.md. -/
def effVsub (o : VArgs) (c : Ctx) : Effect :=
  lanewise o c (fun f x y _ => f.lane ((f.decode x).add (f.decode y).negate))
    (fun w x y _ => let u := o.fn.getLsbD 1; intLane w o.fn (laneInt w u x - laneInt w u y))

/-- VSUB as a lone word. -/
def execVsub (o : VArgs) (s : State) : Host.Outcome State Fault Refusal := lone s (.vsub o) (effVsub o)

/-- VMUL; with H the upper half of the product, never clamped; with U the operands are read unsigned (R225). DEDUCED,
notes/assumptions/68.md. -/
def effVmul (o : VArgs) (c : Ctx) : Effect :=
  lanewise o c (fun f x y _ => f.lane ((f.decode x).mul (f.decode y)))
    (fun w x y _ =>
      let u := o.fn.getLsbD 1
      let p := laneInt w u x * laneInt w u y
      if o.fn.getLsbD 2 then lowBits w (p / 2 ^ w) else intLane w o.fn p)

/-- VMUL as a lone word. -/
def execVmul (o : VArgs) (s : State) : Host.Outcome State Fault Refusal := lone s (.vmul o) (effVmul o)

/-- VFMA: x · y + z, one rounding for floating point; with U the operands are read unsigned (R225). DEDUCED,
notes/assumptions/68.md. -/
def effVfma (o : VArgs) (c : Ctx) : Effect :=
  lanewise o c (fun f x y z => f.lane (((f.decode x).mul (f.decode y)).add (f.decode z)))
    (fun w x y z => let u := o.fn.getLsbD 1; intLane w o.fn (laneInt w u x * laneInt w u y + laneInt w u z))

/-- VFMA as a lone word. -/
def execVfma (o : VArgs) (s : State) : Host.Outcome State Fault Refusal := lone s (.vfma o) (effVfma o)

/-- VMIN: as FMIN and FMAX for floating point; U: unsigned order (R225). -/
def effVmin (o : VArgs) (c : Ctx) : Effect :=
  lanewise o c (fun f x y _ => f.minmax false x y)
    (fun w x y _ => let u := o.fn.getLsbD 1; if laneInt w u y < laneInt w u x then y else x)

/-- VMIN as a lone word. -/
def execVmin (o : VArgs) (s : State) : Host.Outcome State Fault Refusal := lone s (.vmin o) (effVmin o)

/-- VMAX: as FMIN and FMAX for floating point; U: unsigned order (R225). -/
def effVmax (o : VArgs) (c : Ctx) : Effect :=
  lanewise o c (fun f x y _ => f.minmax true x y)
    (fun w x y _ => let u := o.fn.getLsbD 1; if laneInt w u x < laneInt w u y then y else x)

/-- VMAX as a lone word. -/
def execVmax (o : VArgs) (s : State) : Host.Outcome State Fault Refusal := lone s (.vmax o) (effVmax o)

/-- VABS: a NaN gives the canonical NaN; S clamps the most negative integer (R225). -/
def effVabs (o : VArgs) (c : Ctx) : Effect :=
  lanewise o c (fun f x _ _ => f.lane (f.decode x).abs) (fun w x _ _ => intLane w o.fn ((sint w x).natAbs : Int))

/-- VABS as a lone word. -/
def execVabs (o : VArgs) (s : State) : Host.Outcome State Fault Refusal := lone s (.vabs o) (effVabs o)

/-- VAND: bitwise (R225). -/
def effVand (o : VArgs) (c : Ctx) : Effect :=
  lanewise o c (fun _ x y _ => x &&& y) (fun _ x y _ => x &&& y)

/-- VAND as a lone word. -/
def execVand (o : VArgs) (s : State) : Host.Outcome State Fault Refusal := lone s (.vand o) (effVand o)

/-- VOR: bitwise (R225). -/
def effVor (o : VArgs) (c : Ctx) : Effect :=
  lanewise o c (fun _ x y _ => x ||| y) (fun _ x y _ => x ||| y)

/-- VOR as a lone word. -/
def execVor (o : VArgs) (s : State) : Host.Outcome State Fault Refusal := lone s (.vor o) (effVor o)

/-- VXOR: bitwise (R225). -/
def effVxor (o : VArgs) (c : Ctx) : Effect :=
  lanewise o c (fun _ x y _ => x ^^^ y) (fun _ x y _ => x ^^^ y)

/-- VXOR as a lone word. -/
def execVxor (o : VArgs) (s : State) : Host.Outcome State Fault Refusal := lone s (.vxor o) (effVxor o)

/-- VSHL: the amount is taken modulo the lane width (R225, R58). -/
def effVshl (o : VArgs) (c : Ctx) : Effect :=
  lanewise o c (fun _ x _ _ => x) (fun w x y _ => x * 2 ^ (y % w) % 2 ^ w)

/-- VSHL as a lone word. -/
def execVshl (o : VArgs) (s : State) : Host.Outcome State Fault Refusal := lone s (.vshl o) (effVshl o)

/-- VSHR: arithmetic, or logical with U (R225, R58). -/
def effVshr (o : VArgs) (c : Ctx) : Effect :=
  lanewise o c (fun _ x _ _ => x)
    (fun w x y _ => if o.fn.getLsbD 1 then x / 2 ^ (y % w) else lowBits w (sint w x / 2 ^ (y % w)))

/-- VSHR as a lone word. -/
def execVshr (o : VArgs) (s : State) : Host.Outcome State Fault Refusal := lone s (.vshr o) (effVshr o)

/-- VCMP writes a mask (R226). -/
def effVcmp (o : VCArgs) (c : Ctx) : Effect :=
  Effect.turn [setM o.md (maskOf o.ty.lanes fun i =>
    (c.getM o.m).getLsbD i &&
      vcmpHolds o.ty o.fn.toNat (lane o.ty.width (c.getV o.va) i) (lane o.ty.width (c.getV o.vb) i))]

/-- VCMP as a lone word. -/
def execVcmp (o : VCArgs) (s : State) : Host.Outcome State Fault Refusal := lone s (.vcmp o) (effVcmp o)

/-- VSEL writes every lane (R227). -/
def effVsel (o : VArgs) (c : Ctx) : Effect :=
  Effect.turn [setV o.vd (lanesV o.ty.width o.ty.lanes fun i =>
    if (c.getM o.m).getLsbD i then lane o.ty.width (c.getV o.va) i else lane o.ty.width (c.getV o.vb) i)]

/-- VSEL as a lone word. -/
def execVsel (o : VArgs) (s : State) : Host.Outcome State Fault Refusal := lone s (.vsel o) (effVsel o)

/-- VBCAST: the low bits of a scalar in every active lane (R229). -/
def effVbcast (o : VSArgs) (c : Ctx) : Effect :=
  Effect.turn [setV o.v (maskedLanes o.ty (c.getM o.m) (c.getV o.v) fun _ => (c.getS o.s).toNat % 2 ^ o.ty.width)]

/-- VBCAST as a lone word. -/
def execVbcast (o : VSArgs) (s : State) : Host.Outcome State Fault Refusal := lone s (.vbcast o) (effVbcast o)

/-- VINS: the low bits of a scalar in one lane (R229). -/
def effVins (o : VLArgs) (c : Ctx) : Effect :=
  Effect.turn [setV o.v (lanesV o.ty.width o.ty.lanes fun i =>
    if i = o.lane.toNat then (c.getS o.s).toNat % 2 ^ o.ty.width else lane o.ty.width (c.getV o.v) i)]

/-- VINS as a lone word. -/
def execVins (o : VLArgs) (s : State) : Host.Outcome State Fault Refusal := lone s (.vins o) (effVins o)

/-- VEXT: a lane, sign-extended for integers, the raw bits for floating point (R229). -/
def effVext (o : VLArgs) (c : Ctx) : Effect :=
  let x := lane o.ty.width (c.getV o.v) o.lane.toNat
  resS o.s (if o.ty.isInt then BitVec.ofInt 64 (sint o.ty.width x) else word x)

/-- VEXT as a lone word. -/
def execVext (o : VLArgs) (s : State) : Host.Outcome State Fault Refusal := lone s (.vext o) (effVext o)

/-- VREDADD: the exact sum of the active lanes, rounded once (R230). Long, latency 20. -/
def effVredadd (o : VSArgs) (c : Ctx) : Effect :=
  let xs := activeLanes o.ty (c.getM o.m) (c.getV o.v)
  Effect.long 20 [setS o.s (match laneFmt o.ty with
    | some f =>
      match xs.map f.decode with
      | [] => 0
      | v :: vs => word (toF32 (vs.foldl FpVal.add v))
    | none => BitVec.ofInt 64 (xs.foldl (fun a x => a + laneInt o.ty.width (o.fn.getLsbD 0) x) 0))]

/-- VREDADD as a lone word. -/
def execVredadd (o : VSArgs) (s : State) : Host.Outcome State Fault Refusal := lone s (.vredadd o) (effVredadd o)

/-- VREDMAX: the largest active lane (R231). Long, latency 20. -/
def effVredmax (o : VSArgs) (c : Ctx) : Effect :=
  let uns := o.fn.getLsbD 0
  let w := o.ty.width
  let xs := activeLanes o.ty (c.getM o.m) (c.getV o.v)
  Effect.long 20 [setS o.s (match laneFmt o.ty with
    | some f =>
      match xs.map (convert (.fp f) (.fp fp32) .rne false) with
      | [] => 0xFF800000
      | v :: vs => word (vs.foldl (redMax .f32 false) v)
    | none =>
      match xs with
      | [] => if uns then 0 else BitVec.ofInt 64 (-(2 ^ (w - 1) : Int))
      | v :: vs => BitVec.ofInt 64 (laneInt w uns (vs.foldl (redMax o.ty uns) v)))]

/-- VREDMAX as a lone word. -/
def execVredmax (o : VSArgs) (s : State) : Host.Outcome State Fault Refusal := lone s (.vredmax o) (effVredmax o)

/-- VPERM: lane u(vb[i]) mod n of va (R232). -/
def effVperm (o : VArgs) (c : Ctx) : Effect :=
  Effect.turn [setV o.vd (maskedLanes o.ty (c.getM o.m) (c.getV o.vd) fun i =>
    lane o.ty.width (c.getV o.va) (lane o.ty.width (c.getV o.vb) i % o.ty.lanes))]

/-- VPERM as a lone word. -/
def execVperm (o : VArgs) (s : State) : Host.Outcome State Fault Refusal := lone s (.vperm o) (effVperm o)

/-- VCVT: the source type in fn[2:0], the part in vb[2:0], rounding from TFMT or rnesat (R233). -/
def effVcvt (o : VArgs) (c : Ctx) : Effect :=
  let st := laneOfCode (o.fn.toNat % 8)
  let p := o.vb.val % 8
  let rm := if o.fn.getLsbD 3 then .rne else rndOfCode (c.tfmt.toNat / 2 ^ 12 % 4)
  let sat := if o.fn.getLsbD 3 then true else c.tfmt.getLsbD 14
  let cvt := convert (laneKind st) (laneKind o.ty) rm sat
  let src := lane st.width (c.getV o.va)
  Effect.turn [setV o.vd (maskedLanes o.ty (c.getM o.m) (c.getV o.vd) fun i =>
    if o.ty.lanes ≤ st.lanes then cvt (src (p * o.ty.lanes + i))
    else if p * st.lanes ≤ i ∧ i < (p + 1) * st.lanes then cvt (src (i - p * st.lanes))
    else lane o.ty.width (c.getV o.vd) i)]

/-- VCVT as a lone word. -/
def execVcvt (o : VArgs) (s : State) : Host.Outcome State Fault Refusal := lone s (.vcvt o) (effVcvt o)

/-- VEXP2: 2^x, correctly rounded, in each active FP32 lane (R234). Long, latency 24. -/
def effVexp2 (o : VArgs) (c : Ctx) : Effect :=
  Effect.long 24 [setV o.vd (maskedLanes .f32 (c.getM o.m) (c.getV o.vd) fun i =>
    toF32 (FpVal.exp2 (ofF32 (lane 32 (c.getV o.va) i))))]

/-- VEXP2 as a lone word. -/
def execVexp2 (o : VArgs) (s : State) : Host.Outcome State Fault Refusal := lone s (.vexp2 o) (effVexp2 o)

/-- VRCP: 1/x, correctly rounded, in each active FP32 lane (R234). Long, latency 24. -/
def effVrcp (o : VArgs) (c : Ctx) : Effect :=
  Effect.long 24 [setV o.vd (maskedLanes .f32 (c.getM o.m) (c.getV o.vd) fun i =>
    toF32 ((fun x => (FpVal.fin false 1 0).div x) (ofF32 (lane 32 (c.getV o.va) i))))]

/-- VRCP as a lone word. -/
def execVrcp (o : VArgs) (s : State) : Host.Outcome State Fault Refusal := lone s (.vrcp o) (effVrcp o)

/-- VDOT4: groups of four INT8 products into saturating INT32 lanes; the mask governs products (R235). Long, latency 20. -/
def effVdot4 (o : VArgs) (c : Ctx) : Effect :=
  let b := fun j => match o.fn.toNat % 4 with
    | 0 => sint 8 (lane 8 (c.getV o.vb) j)
    | 1 => int4At (c.getV o.vb) j
    | _ => int3At (c.getV o.vb) j
  let t := fun j => if (c.getM o.m).getLsbD j then sint 8 (lane 8 (c.getV o.va) j) * b j else 0
  Effect.long 20 [setV o.vd (lanesV 32 16 fun i =>
    lowBits 32 (satInt32 (sint 32 (lane 32 (c.getV o.vd) i) + (t (4 * i) + t (4 * i + 1) + t (4 * i + 2) + t (4 * i + 3)))))]

/-- VDOT4 as a lone word. -/
def execVdot4 (o : VArgs) (s : State) : Host.Outcome State Fault Refusal := lone s (.vdot4 o) (effVdot4 o)

/-- VADDSUB: values added or subtracted by the signs of another vector into 32-bit lanes (R236). -/
def effVaddsub (o : VArgs) (c : Ctx) : Effect :=
  let w := o.ty.width
  let g := 32 / w
  let on := fun j => (c.getM o.m).getLsbD j
  let va := lane w (c.getV o.va)
  let vb := lane w (c.getV o.vb)
  Effect.turn [setV o.vd (lanesV 32 16 fun i =>
    let js := ((List.range g).map fun k => g * i + k).filter on
    let z := lane 32 (c.getV o.vd) i
    match laneFmt o.ty with
    | some f =>
      let t := js.filterMap fun j => match f.decode (vb j) with
        | .nan => some FpVal.nan
        | .fin _ 0 _ => none
        | v => some (if v.neg then (f.decode (va j)).negate else f.decode (va j))
      toF32 ((ofF32 z).add (t.foldl FpVal.add (.fin true 0 0)))
    | none =>
      let t := js.map fun j =>
        if vb j = 0 then 0 else if sint w (vb j) < 0 then -sint w (va j) else sint w (va j)
      lowBits 32 (satInt32 (sint 32 z + t.sum)))]

/-- VADDSUB as a lone word. -/
def execVaddsub (o : VArgs) (s : State) : Host.Outcome State Fault Refusal := lone s (.vaddsub o) (effVaddsub o)

/-- MOP: a mask of two masks (R228). -/
def effMop (o : MopArgs) (c : Ctx) : Effect :=
  let a := c.getM o.ma
  let b := c.getM o.mb
  Effect.turn [setM o.md (maskOf o.ty.lanes fun i => match o.fn.toNat with
    | 0 => a.getLsbD i && b.getLsbD i
    | 1 => a.getLsbD i || b.getLsbD i
    | 2 => a.getLsbD i != b.getLsbD i
    | 3 => a.getLsbD i && !b.getLsbD i
    | 4 => !a.getLsbD i
    | _ => a.getLsbD i && a.toNat % 2 ^ i == 0)]

/-- MOP as a lone word. -/
def execMop (o : MopArgs) (s : State) : Host.Outcome State Fault Refusal := lone s (.mop o) (effMop o)

/-- UNPK3: TERN5 bytes to trits, illegal bytes recorded in the named mask (R237). -/
def effUnpk3 (o : VArgs) (c : Ctx) : Effect :=
  let v := fun j => lane 8 (c.getV o.va) (12 * (o.fn.toNat % 8) + j)
  let ts := (List.range 12).flatMap fun j => if v j ≤ 242 then trits (v j) else [0, 0, 0, 0, 0]
  Effect.turn [setV o.vd (lanesV 8 64 fun i => lowBits 8 (ts.getD i 0)),
    setM o.m (maskOf 12 fun j => decide (242 < v j))]

/-- UNPK3 as a lone word. -/
def execUnpk3 (o : VArgs) (s : State) : Host.Outcome State Fault Refusal := lone s (.unpk3 o) (effUnpk3 o)

/-- UNPK4: INT4 elements sign-extended into INT8 or INT16 lanes (R238). -/
def effUnpk4 (o : VArgs) (c : Ctx) : Effect :=
  let base := if o.ty = .i8 then 64 * (o.fn.toNat % 2) else 32 * (o.fn.toNat % 4)
  Effect.turn [setV o.vd (maskedLanes o.ty (c.getM o.m) (c.getV o.vd) fun i =>
    lowBits o.ty.width (int4At (c.getV o.va) (base + i)))]

/-- UNPK4 as a lone word. -/
def execUnpk4 (o : VArgs) (s : State) : Host.Outcome State Fault Refusal := lone s (.unpk4 o) (effUnpk4 o)

/-- UNPKI3: INT3 elements sign-extended into INT8 lanes (R239). -/
def effUnpki3 (o : VArgs) (c : Ctx) : Effect :=
  Effect.turn [setV o.vd (maskedLanes o.ty (c.getM o.m) (c.getV o.vd) fun i =>
    lowBits 8 (int3At (c.getV o.va) (64 * (o.fn.toNat % 2) + i)))]

/-- UNPKI3 as a lone word. -/
def execUnpki3 (o : VArgs) (s : State) : Host.Outcome State Fault Refusal := lone s (.unpki3 o) (effUnpki3 o)

end Sys2Proof.Machine
end

