-- ==== Sys2Proof/Machine/Gauss.lean ====
section
/-!
DEFINITION. Message records and the Gaussian block instructions of the A side (spec/19_gaussian_messages.md R388 to R400).
-/
namespace Sys2Proof.Machine

/-- A message record (R388): its number of used positions, header lane, identities, and the FP32 codes of Λ by lane and
of η. -/
structure Rec where
  n    : Nat
  head : Nat
  ids  : List Nat
  lam  : List Nat
  eta  : List Nat
  deriving DecidableEq, Repr

/-- Lane L of the record in a quad (R388). -/
def quadLane (c : Ctx) (q : QReg) (l : Nat) : Nat := lane 32 (c.getV (Fin.ofNat 16 (4 * q.val + l / 16))) (l % 16)

/-- The record in a quad. -/
def recOf (c : Ctx) (q : QReg) : Rec :=
  let l := quadLane c q
  ⟨l 56 % 8, l 56, (List.range 7).map fun i => l (57 + i), (List.range 49).map l, (List.range 7).map fun i => l (49 + i)⟩

/-- The scope: the identities of the used positions. -/
def Rec.scope (r : Rec) : List Nat := r.ids.take r.n

/-- Λ[i][j] of the upper triangle, by positions in either order. -/
def Rec.at (r : Rec) (i j : Nat) : Nat := r.lam.getD (7 * Nat.min i j + Nat.max i j) 0

/-- η[i]. -/
def Rec.etaAt (r : Rec) (i : Nat) : Nat := r.eta.getD i 0

/-- The first identity out of order, 0 when only reserved bits are set, none when the record is well formed (R389, R393). -/
def Rec.malformed (r : Rec) : Option Nat :=
  match (List.range r.n).find? fun p =>
      r.ids.getD p 0 == 0xFFFFFFFF || (p != 0 && decide (r.ids.getD p 0 ≤ r.ids.getD (p - 1) 0)) with
  | some p => some (r.ids.getD p 0)
  | none => if r.head / 8 % 32 = 0 then none else some 0

/-- SCOPE_MISMATCH with its reason and identity (R393). -/
def scopeTrap (reason id : Nat) : Trap := (Cause.scopeMismatch, word (reason + id * 2 ^ 32))

/-- An FP32 code with a NaN made canonical (R393). -/
def canon (x : Nat) : Nat := toF32 (ofF32 x)

/-- A sum, difference and fused step, each rounded once (R394, R398). -/
def fsum (x y : Nat) : Nat := toF32 ((ofF32 x).add (ofF32 y))
/-- x − y. -/
def fdiff (x y : Nat) : Nat := toF32 ((ofF32 x).add (ofF32 y).negate)
/-- x − f · y. -/
def fnms (x f y : Nat) : Nat := toF32 ((ofF32 x).add ((ofF32 f).mul (ofF32 y)).negate)
/-- x / y. -/
def fquot (x y : Nat) : Nat := toF32 ((ofF32 x).div (ofF32 y))

/-- A result record written whole to a quad: mirrored, unused positions reset, DAMP and TAG from a header (R389). -/
def recWrites (gd : QReg) (head : Nat) (ids : List Nat) (lam : Nat → Nat → Nat) (eta : Nat → Nat) : List RegWrite :=
  let n := ids.length
  let l := fun k =>
    if k < 49 then
      let i := k / 7
      let j := k % 7
      if i < n ∧ j < n then lam (Nat.min i j) (Nat.max i j) else 0
    else if k < 56 then (if k - 49 < n then eta (k - 49) else 0)
    else if k = 56 then n + head / 256 * 256
    else ids.getD (k - 57) 0xFFFFFFFF
  (List.range 4).map fun q => setV (Fin.ofNat 16 (4 * gd.val + q)) (lanesV 32 16 fun i => l (16 * q + i))

/-- A number put into an ascending list. -/
def insertAsc (x : Nat) : List Nat → List Nat
  | [] => [x]
  | y :: ys => if x < y then x :: y :: ys else y :: insertAsc x ys

/-- The ascending union of two scopes. -/
def scopeUnion (as bs : List Nat) : List Nat := (as ++ bs.filter fun b => !as.contains b).foldr insertAsc []

/-- Both sources well formed (R393 reasons 1 and 2). -/
def checkTwo (a b : Rec) : Except Trap Unit :=
  match a.malformed with
  | some i => .error (scopeTrap 1 i)
  | none =>
    match b.malformed with
    | some i => .error (scopeTrap 2 i)
    | none => .ok ()

/-- The lowest identity in one scope and not in the other (R393 reason 3). -/
def scopeDiff (a b : Rec) : Option Nat :=
  (scopeUnion a.scope b.scope).find? fun i => a.scope.contains i != b.scope.contains i

/-- Both well formed, and of one scope. -/
def checkSame (a b : Rec) : Except Trap Unit :=
  match checkTwo a b with
  | .error t => .error t
  | .ok () =>
    match scopeDiff a b with
    | some i => .error (scopeTrap 3 i)
    | none => .ok ()

/-- The position of an identity in a scope. -/
def Rec.pos (r : Rec) (id : Nat) : Option Nat := if r.scope.contains id then some (r.scope.idxOf id) else none

/-- GADD's entry: of both sources, of one exactly, or +0 (R394). -/
def gaddEntry (sub : Bool) (x y : Option Nat) : Nat :=
  match x, y with
  | some x, some y => if sub then fdiff x y else fsum x y
  | some x, none => canon x
  | none, some y => if sub then toF32 (ofF32 y).negate else canon y
  | none, none => 0

/-- An entry by identities, if both lie in the scope. -/
def Rec.entry (r : Rec) (i j : Nat) : Option Nat :=
  match r.pos i, r.pos j with
  | some p, some q => some (r.at p q)
  | _, _ => none

/-- An η entry by identity. -/
def Rec.etaEntry (r : Rec) (i : Nat) : Option Nat := (r.pos i).map r.etaAt

/-- GADD: messages added or subtracted over the union of their scopes (R394). -/
def effGadd (gd ga gb : QReg) (sub : Bool) (c : Ctx) : Except Trap Effect :=
  let a := recOf c ga
  let b := recOf c gb
  match checkTwo a b with
  | .error t => .error t
  | .ok () =>
    let u := scopeUnion a.scope b.scope
    if 7 < u.length then .error (scopeTrap 4 (u.getD 7 0))
    else .ok (Effect.turn (recWrites gd a.head u
      (fun p q => gaddEntry sub (a.entry (u.getD p 0) (u.getD q 0)) (b.entry (u.getD p 0) (u.getD q 0)))
      (fun p => gaddEntry sub (a.etaEntry (u.getD p 0)) (b.etaEntry (u.getD p 0)))))

/-- GEXT: a message restated over another scope (R395). -/
def effGext (gd ga gb : QReg) (c : Ctx) : Except Trap Effect :=
  let a := recOf c ga
  let b := recOf c gb
  match checkTwo a b with
  | .error t => .error t
  | .ok () =>
    match a.scope.find? fun i => !b.scope.contains i with
    | some i => .error (scopeTrap 5 i)
    | none =>
      let u := b.scope
      .ok (Effect.turn (recWrites gd a.head u
        (fun p q => ((a.entry (u.getD p 0) (u.getD q 0)).map canon).getD 0)
        (fun p => ((a.etaEntry (u.getD p 0)).map canon).getD 0)))

/-- GDAMP's blend of two entries under weight D (R396). -/
def damp (d a b : Nat) : Nat :=
  if d = 0 then canon a
  else toF32 ((((FpVal.ofInt (256 - d)).mul (ofF32 a)).add ((FpVal.ofInt d).mul (ofF32 b))).mul (.fin false 1 (-8)))

/-- GDAMP: a new message blended with the previous one (R396). -/
def effGdamp (gd ga gb : QReg) (c : Ctx) : Except Trap Effect :=
  let a := recOf c ga
  let b := recOf c gb
  match checkSame a b with
  | .error t => .error t
  | .ok () =>
    let d := a.head / 256 % 256
    .ok (Effect.turn (recWrites gd a.head a.scope (fun p q => damp d (a.at p q) (b.at p q))
      (fun p => damp d (a.etaAt p) (b.etaAt p))))

/-- The positions (i, j), i ≤ j, of the upper triangle below n. -/
def upper (n : Nat) : List (Nat × Nat) :=
  (List.range n).flatMap fun i => ((List.range n).filter fun j => i ≤ j).map fun j => (i, j)

/-- The larger of two FP32 codes, NaN when either is (R397). -/
def maxNan (x y : Nat) : Nat :=
  match (ofF32 x).cmp (ofF32 y) with
  | none => fp32.nan
  | some c => if c = -1 then y else x

/-- GRES: the largest absolute difference of two messages (R397). Long, latency 40. -/
def effGres (s : SReg) (ga gb : QReg) (c : Ctx) : Except Trap Effect :=
  let a := recOf c ga
  let b := recOf c gb
  match checkSame a b with
  | .error t => .error t
  | .ok () =>
    let dif := fun x y => toF32 ((ofF32 x).add (ofF32 y).negate).abs
    let rs := (upper a.n).map (fun p => dif (a.at p.1 p.2) (b.at p.1 p.2)) ++
      (List.range a.n).map fun i => dif (a.etaAt i) (b.etaAt i)
    .ok (Effect.long 40 [setS s (word (rs.foldl maxNan 0))])

/-- One elimination step on position e, updating the positions of a list (R398); the failing pivot otherwise. -/
def elimStep (tol : Nat) (r : Rec) (e : Nat) (rest : List Nat) : Except Trap Rec :=
  let p := r.at e e
  if (ofF32 p).cmp (ofF32 tol) ≠ some 1 then .error (Cause.singularBlock, word (p + e * 2 ^ 32))
  else
    let f := fun i => fquot (r.at i e) p
    .ok { r with
      lam := (List.range 49).map fun k =>
        let i := k / 7
        let j := k % 7
        if i ≤ j ∧ rest.contains i ∧ rest.contains j then fnms (r.at i j) (f i) (r.at e j) else r.lam.getD k 0
      eta := (List.range 7).map fun i =>
        if rest.contains i then fnms (r.etaAt i) (f i) (r.etaAt e) else r.etaAt i }

/-- The elimination of several positions in turn (R398). -/
def elimAll (tol : Nat) : List Nat → List Nat → Rec → Except Trap Rec
  | [], _, r => .ok r
  | e :: es, keep, r =>
    match elimStep tol r e (keep.filter (· != e)) with
    | .error t => .error t
    | .ok r => elimAll tol es (keep.filter (· != e)) r

/-- GELIM: the positions with keep bit 0 eliminated (R398, R400). Long, latency 48. -/
def effGelim (gd ga : QReg) (keep : BitVec 7) (c : Ctx) : Except Trap Effect :=
  let a := recOf c ga
  match a.malformed with
  | some i => .error (scopeTrap 1 i)
  | none =>
    let used := List.range a.n
    match elimAll c.gtol.toNat (used.filter fun i => !keep.getLsbD i) used a with
    | .error t => .error t
    | .ok r =>
      let k := used.filter fun i => keep.getLsbD i
      .ok (Effect.long 48 (recWrites gd a.head (k.map fun i => a.ids.getD i 0)
        (fun p q => canon (r.at (k.getD p 0) (k.getD q 0))) (fun p => canon (r.etaAt (k.getD p 0)))))

/-- The forward pass of GMEAN: position e eliminated from those above it, for each e (R399). -/
def forward (tol n : Nat) : List Nat → Rec → Except Trap Rec
  | [], r => .ok r
  | e :: es, r =>
    match elimStep tol r e ((List.range n).filter fun i => e < i) with
    | .error t => .error t
    | .ok r => forward tol n es r

/-- The back substitution of GMEAN, from position n − 1 down: the means found so far, lowest position first (R399). -/
def backward (r : Rec) : Nat → List Nat → List Nat
  | 0, mu => mu
  | k + 1, mu =>
    let e := k
    let t := ((List.range mu.length).foldl (fun t i => fnms t (r.at e (e + 1 + i)) (mu.getD i 0)) (r.etaAt e))
    backward r k (fquot t (r.at e e) :: mu)

/-- GMEAN: the mean μ with Λ·μ = η (R399, R400). Long, latency 40. -/
def effGmean (gd ga : QReg) (c : Ctx) : Except Trap Effect :=
  let a := recOf c ga
  match a.malformed with
  | some i => .error (scopeTrap 1 i)
  | none =>
    match forward c.gtol.toNat a.n (List.range a.n) a with
    | .error t => .error t
    | .ok r =>
      let mu := backward r a.n []
      .ok (Effect.long 40 (recWrites gd a.head a.scope (fun p q => canon (a.at p q)) (fun p => mu.getD p 0)))

/-- A lone A-side word that may trap. -/
def loneTry (s : State) (i : Instr) (f : Ctx → Except Trap Effect) : Host.Outcome State Fault Refusal :=
  .next (s.issueA i (f (s.ctx s.cur)))

/-- GADD as a lone word. -/
def execGadd (gd ga gb : QReg) (sub : Bool) (s : State) : Host.Outcome State Fault Refusal :=
  loneTry s (.gadd gd ga gb sub) (effGadd gd ga gb sub)

/-- GEXT as a lone word. -/
def execGext (gd ga gb : QReg) (s : State) : Host.Outcome State Fault Refusal :=
  loneTry s (.gext gd ga gb) (effGext gd ga gb)

/-- GELIM as a lone word. -/
def execGelim (gd ga : QReg) (keep : BitVec 7) (s : State) : Host.Outcome State Fault Refusal :=
  loneTry s (.gelim gd ga keep) (effGelim gd ga keep)

/-- GDAMP as a lone word. -/
def execGdamp (gd ga gb : QReg) (s : State) : Host.Outcome State Fault Refusal :=
  loneTry s (.gdamp gd ga gb) (effGdamp gd ga gb)

/-- GRES as a lone word. -/
def execGres (r : SReg) (ga gb : QReg) (s : State) : Host.Outcome State Fault Refusal :=
  loneTry s (.gres r ga gb) (effGres r ga gb)

/-- GMEAN as a lone word. -/
def execGmean (gd ga : QReg) (s : State) : Host.Outcome State Fault Refusal :=
  loneTry s (.gmean gd ga) (effGmean gd ga)

end Sys2Proof.Machine
end

