-- ==== Sys2Proof/Machine/Tail.lean ====
section
/-!
DEFINITION. The tail of a pair: the effect of every A-side instruction on the registers as they stood before the bundle
(R14), and the issue of a C-side instruction with its tail.
-/
namespace Sys2Proof.Machine

/-- The effect of an A-side instruction, or the cause it raises. -/
def effectOf (i : Instr) (x : Ctx) : Except Trap Effect :=
  match i with
  | .nopa => .ok (effNopa x)
  | .add w32 d a b => .ok (effAdd w32 d a b x)
  | .sub w32 d a b => .ok (effSub w32 d a b x)
  | .and d a b => .ok (effAnd d a b x)
  | .or d a b => .ok (effOr d a b x)
  | .xor d a b => .ok (effXor d a b x)
  | .andn d a b => .ok (effAndn d a b x)
  | .shl d a b => .ok (effShl d a b x)
  | .shr d a b => .ok (effShr d a b x)
  | .sra d a b => .ok (effSra d a b x)
  | .mul w32 d a b => .ok (effMul w32 d a b x)
  | .mulh d a b => .ok (effMulh d a b x)
  | .mulhu d a b => .ok (effMulhu d a b x)
  | .div w32 d a b => .ok (effDiv w32 d a b x)
  | .divu w32 d a b => .ok (effDivu w32 d a b x)
  | .rem w32 d a b => .ok (effRem w32 d a b x)
  | .remu w32 d a b => .ok (effRemu w32 d a b x)
  | .min d a b => .ok (effMin d a b x)
  | .max d a b => .ok (effMax d a b x)
  | .minu d a b => .ok (effMinu d a b x)
  | .maxu d a b => .ok (effMaxu d a b x)
  | .cmpeq d a b => .ok (effCmpeq d a b x)
  | .cmpne d a b => .ok (effCmpne d a b x)
  | .cmplt d a b => .ok (effCmplt d a b x)
  | .cmpltu d a b => .ok (effCmpltu d a b x)
  | .cmple d a b => .ok (effCmple d a b x)
  | .cmpleu d a b => .ok (effCmpleu d a b x)
  | .sel d a b c => .ok (effSel d a b c x)
  | .clz d a => .ok (effClz d a x)
  | .ctz d a => .ok (effCtz d a x)
  | .popc d a => .ok (effPopc d a x)
  | .bfx d a b sg => .ok (effBfx d a b sg x)
  | .bfi d a b => .ok (effBfi d a b x)
  | .addi d a imm => .ok (effAddi d a imm x)
  | .andi d a imm => .ok (effAndi d a imm x)
  | .ori d a imm => .ok (effOri d a imm x)
  | .xori d a imm => .ok (effXori d a imm x)
  | .shli d a imm => .ok (effShli d a imm x)
  | .shri d a imm => .ok (effShri d a imm x)
  | .srai d a imm => .ok (effSrai d a imm x)
  | .cmpeqi d a imm => .ok (effCmpeqi d a imm x)
  | .cmplti d a imm => .ok (effCmplti d a imm x)
  | .li d imm => .ok (effLi d imm x)
  | .lui d imm => .ok (effLui d imm x)
  | .fadd d a b => .ok (effFadd d a b x)
  | .fsub d a b => .ok (effFsub d a b x)
  | .fmul d a b => .ok (effFmul d a b x)
  | .ffma d a b c => .ok (effFfma d a b c x)
  | .fmin d a b => .ok (effFmin d a b x)
  | .fmax d a b => .ok (effFmax d a b x)
  | .fdiv d a b => .ok (effFdiv d a b x)
  | .fsqrt d a => .ok (effFsqrt d a x)
  | .fcmp d a b p => .ok (effFcmp d a b p x)
  | .fcvt d a k rm sat => .ok (effFcvt d a k rm sat x)
  | .fclass d a => .ok (effFclass d a x)
  | .vadd o => .ok (effVadd o x)
  | .vsub o => .ok (effVsub o x)
  | .vmul o => .ok (effVmul o x)
  | .vfma o => .ok (effVfma o x)
  | .vmin o => .ok (effVmin o x)
  | .vmax o => .ok (effVmax o x)
  | .vabs o => .ok (effVabs o x)
  | .vand o => .ok (effVand o x)
  | .vor o => .ok (effVor o x)
  | .vxor o => .ok (effVxor o x)
  | .vshl o => .ok (effVshl o x)
  | .vshr o => .ok (effVshr o x)
  | .vcmp o => .ok (effVcmp o x)
  | .vsel o => .ok (effVsel o x)
  | .vbcast o => .ok (effVbcast o x)
  | .vins o => .ok (effVins o x)
  | .vext o => .ok (effVext o x)
  | .vredadd o => .ok (effVredadd o x)
  | .vredmax o => .ok (effVredmax o x)
  | .vperm o => .ok (effVperm o x)
  | .vcvt o => .ok (effVcvt o x)
  | .vexp2 o => .ok (effVexp2 o x)
  | .vrcp o => .ok (effVrcp o x)
  | .vdot4 o => .ok (effVdot4 o x)
  | .vaddsub o => .ok (effVaddsub o x)
  | .mop o => .ok (effMop o x)
  | .unpk3 o => .ok (effUnpk3 o x)
  | .unpk4 o => .ok (effUnpk4 o x)
  | .unpki3 o => .ok (effUnpki3 o x)
  | .gadd gd ga gb sub => effGadd gd ga gb sub x
  | .gext gd ga gb => effGext gd ga gb x
  | .gelim gd ga keep => effGelim gd ga keep x
  | .gdamp gd ga gb => effGdamp gd ga gb x
  | .gres r ga gb => effGres r ga gb x
  | .gmean gd ga => effGmean gd ga x
  | _ => .ok Effect.none

/-- The effect of a bundle's tail; a lone word has none. -/
def tailEffect (t : Option Instr) (c : Ctx) : Except Trap Effect :=
  match t with
  | none => .ok Effect.none
  | some i => effectOf i c

/-- The issue of a lone C-side word or of a pair (R14, R18): PRIVILEGED, the pending registers of both halves, the head's
own causes, a cause of the head that is taken in a way of its own, the tail's, and then what the head does with the tail's effect. -/
def State.issueLate (s : State) (i : Instr) (priv own : Option Trap) (late : Option State) (k : Effect → State) : State :=
  let c := s.ctx s.cur
  match priv with
  | some t => s.raise t
  | none =>
    match c.pendingTrap (bundleReads i s.bun.tail ++ c.impliedReads i) (bundleWrites i s.bun.tail) with
    | some t => s.raise t
    | none =>
      match own with
      | some t => s.raise t
      | none =>
        match late with
        | some t => t
        | none =>
          match tailEffect s.bun.tail c with
          | .error t => s.raise t
          | .ok e => k e

/-- The issue of a bundle whose head raises its causes as any does. -/
def State.issueC (s : State) (i : Instr) (priv own : Option Trap) (k : Effect → State) : State := s.issueLate i priv own none k

end Sys2Proof.Machine
end

