-- ==== Sys2Proof/Machine/Access.lean ====
section
/-!
DEFINITION. Memory accesses: their requests and places, the hold of R192 and R193, the latency of a path, the L1 copies, and
the putting of an access under way (spec/07_fetch_and_issue.md R191 to R193, spec/10_memory.md R240 to R258).
-/
namespace Sys2Proof.Machine

/-- A stretch of an access: its address, its place in the access's data and its length. -/
structure Piece where
  addr : Word
  off  : Nat
  n    : Nat
  deriving DecidableEq, Repr

/-- A piece cut into stretches of at most 8 bytes, the unit of striping (R63). -/
def Piece.chunks (p : Piece) : List Piece :=
  if p.n ≤ 8 then [p] else (List.range (p.n / 8)).map fun k => ⟨p.addr + word (8 * k), p.off + 8 * k, 8⟩

/-- A chunk's place: its request's target, and each of its bytes with its place in the access's data. -/
def chunkPart (p : Piece) : Place → Target × List (Nat × Nat)
  | .slab k b => (.bank k (b / 32 % 8) (b / 256), (List.range p.n).map fun i => (b + i, p.off + i))
  | .global m d off =>
    (if m = Config.moduleNumber then .slice (sliceOf d (homeOf off)) (off / 64) else .away m,
     (List.range p.n).map fun i => (off + i, p.off + i))
  | .census d off => (.census d, (List.range p.n).map fun i => (off + i, p.off + i))
  | .host off => (.host, (List.range p.n).map fun i => (off + i, p.off + i))

/-- A chunk joins the request of the same target, or starts one of its own (R241, R260). -/
def addChunk (ps : List (Target × Word × List (Nat × Nat))) (t : Target) (a : Word) (bs : List (Nat × Nat)) :
    List (Target × Word × List (Nat × Nat)) :=
  match ps with
  | [] => [(t, a, bs)]
  | (t', a', bs') :: rest => if t' = t then (t', a', bs' ++ bs) :: rest else (t', a', bs') :: addChunk rest t a bs

/-- An address of the host window (R61). -/
def isHost (a : Word) : Bool := bits a 56 56 == 1 && bits a 55 53 == 2

/-- The checks of every piece in order, the first failure reported, and the requests they make (R256, R260, R392); `host` says that
the host window accepts the form (R137). -/
def State.placePieces (s : State) (g : Nat) (am : AddrMode) (align : Nat) (need : Rights) (host : Bool) :
    List Piece → Except Trap (List (Piece × Place))
  | [] => .ok []
  | p :: ps =>
    match if !host && isHost p.addr then .error (Cause.misaligned, p.addr) else s.checkAddr g am p.addr align need with
    | .error t => .error t
    | .ok _ =>
      match p.chunks.mapM fun c =>
          match s.checkAddr g am c.addr 1 need with
          | .ok pl => Except.ok (c, pl)
          | .error t => Except.error ((t.1, p.addr) : Trap) with
      | .error t => .error t
      | .ok cs =>
        match s.placePieces g am align need host ps with
        | .error t => .error t
        | .ok rest => .ok (cs ++ rest)

/-- The uncontended time of a request to a slab (R251). -/
def slabTime (core k : Nat) : Nat :=
  if k = core then 20 else if clusterOf k = clusterOf core then 34 else if dieOfCore k = dieOfCore core then 120 else 230

/-- The uncontended time of a request, with the free value a relaxed one draws for its path (R245, R251). -/
def State.partTime (s : State) (core : Nat) (relaxed : Bool) : Target → Nat × State
  | .bank k _ _ => (slabTime core k, s)
  | .slice sl _ =>
    if relaxed then
      let r := s.freeRange 170 230
      (r.1 + (if sl / Config.slices = dieOfCore core then 0 else 110), r.2)
    else (pathTime core sl, s)
  | .cached => (26, s)
  | .census d => (if d = dieOfCore core then 120 else 230, s)
  | .away _ => (pathTime core (dieOfCore core * Config.slices), s)
  | .host => s.freeRange 400 4000

/-- The cycles from a request's leaving to its arrival at its target. -/
def arriveAfter (t : Target) (lat : Nat) : Nat :=
  match t with
  | .bank _ _ _ => 1 + (lat - 20) / 2
  | _ => lat / 2

/-- Bytes read from a sector's data, as the bytes of a request. -/
def sectorBytes (d : BitVec 512) (bs : List (Nat × Nat)) : List Byte :=
  bs.map fun b => d.extractLsb' (8 * (b.1 % 64)) 8

/-- The sector of a core's data cache as a load of a context finds it in this cycle: an invalidation that no turn made shows to the
siblings of the context that made it from the next cycle on (R265), to that context itself at once (R300, R301). -/
def State.l1Find (s : State) (g core : Nat) (a : Nat) : Option Sector :=
  match cacheFind (s.core core).l1d a, (s.core core).l1was with
  | some x, _ => some x
  | none, some (c, by_, l) => if c = s.cycle ∧ by_ ≠ g then cacheFind l a else none
  | none, none => none

/-- What a copy gives a load: its time, its bytes, and the sector that L1 takes from the remote-data cache (R244). -/
structure CopyHit where
  lat  : Nat
  data : List Byte
  fill : Option (BitVec 512 × Bool)
  deriving DecidableEq, Repr

/-- A load's request finds its sector in L1, in 26 cycles, or, homed elsewhere, in the die's remote-data cache, in 140 to
180 (R244, R249, R251). DEDUCED, notes/assumptions/22.md. -/
def State.cachedData (s : State) (g core : Nat) (a : Word) (bs : List (Nat × Nat)) : Option (CopyHit × State) :=
  match s.l1Find g core a.toNat with
  | some x =>
    some (⟨26, sectorBytes x.data bs, none⟩, s.modCore core fun k => { k with l1d := cacheTouch k.l1d a.toNat })
  | none =>
    if bits a 45 45 = dieOfCore core ∧ bits a 55 46 = Config.moduleNumber then none
    else
      match cacheFind (s.die (dieOfCore core)).rdc a.toNat with
      | some x =>
        let r := s.freeRange 140 180
        some (⟨r.1, sectorBytes x.data bs, some (x.data, false)⟩,
          r.2.modDie (dieOfCore core) fun d => { d with rdc := cacheTouch d.rdc a.toNat })
      | none => none

/-- The comparator holds an access of a leading context (R196). -/
def State.isHeld (s : State) (a : Access) : Bool :=
  match (s.ctx a.gid).twin with
  | some t => t.points.any fun h => h.acc == some a.id
  | none => false

/-- A store that the comparator holds will write a sector: no copy of it serves a load (R297). -/
def State.heldAt (s : State) (a : Word) : Bool :=
  s.accs.any fun x => s.isHeld x && x.parts.any fun p => p.addr.toNat / 64 == a.toNat / 64

/-- The requests of an access, their times counted from its launch, one leaving a cycle (R260); `useL1` says that a load may be served by a cached copy. -/
def State.makeParts (s : State) (g core : Nat) (relaxed useL1 : Bool) (data : List Byte) :
    List (Target × Word × List (Nat × Nat)) → Nat → List Part × State
  | [], _ => ([], s)
  | (t, a, bs) :: rest, i =>
    let out := bs.map fun b => data.getD b.2 0
    match (match t with | .slice _ _ => if useL1 && !s.heldAt a then s.cachedData g core a bs else none | _ => none) with
    | some (h, s') =>
      let r := s'.makeParts g core relaxed useL1 data rest (i + 1)
      (⟨.cached, a, bs, h.data, [], .served, h.lat, i, i + h.lat, h.fill⟩ :: r.1, r.2)
    | none =>
      let l := s.partTime core relaxed t
      let r := l.2.makeParts g core relaxed useL1 data rest (i + 1)
      (⟨t, a, bs, out, [], .sent, l.1, i, 0, none⟩ :: r.1, r.2)

/-- The TOUCH bits of an access's places (R253, R254). -/
def touchOf (core : Nat) (ps : List Place) : Word :=
  ps.foldl (fun w p => match touchBit core p with | some b => w ||| ((1 : Word) <<< b) | none => w) 0

/-- A sector's data with some bytes written. -/
def sectorWrite (d : BitVec 512) : List (Nat × Nat) → List Byte → BitVec 512
  | b :: bs, x :: xs =>
    let k := 8 * (b.1 % 64)
    sectorWrite ((d &&& ~~~((0xFF : BitVec 512) <<< k)) ||| (x.setWidth 512 <<< k)) bs xs
  | _, _ => d

/-- A store updates every valid L1 sector it covers, in its issue cycle (R244). -/
def storeL1 (l1 : List Sector) (a : Word) (bs : List (Nat × Nat)) (data : List Byte) : List Sector :=
  l1.map fun x => if x.addr == a.toNat / 64 * 64 then { x with data := sectorWrite x.data bs data } else x

/-- The L1 data cache after the requests of a store (R244). -/
def storeParts (l1 : List Sector) (ps : List Part) : List Sector :=
  ps.foldl (fun l p =>
    match p.tgt with
    | .slice _ _ | .away _ => storeL1 l p.addr p.bytes p.data
    | _ => l) l1

/-- An invalidation of the whole data cache (R244): every sector, and the fills in flight (R264). -/
def Core.invalidate (k : Core) : Core := { k with l1d := [], l1was := none, epoch := k.epoch + 1 }

/-- The data cache of a core invalidated. -/
def State.invalidateL1 (s : State) (core : Nat) : State := s.modCore core Core.invalidate

/-- The data cache of a core invalidated by a context's FENCE or by the return of its LDA, in a cycle in which a sibling may issue
(R265). -/
def State.invalidateL1Late (s : State) (g core : Nat) : State :=
  s.modCore core fun k => { k.invalidate with l1was := some (s.cycle, g, k.l1d) }

/-- A non-relaxed access is under way, or no relaxed entry is free: the instruction does not issue (R192, R193). -/
def State.memHeld (s : State) (relaxed : Bool) : Bool :=
  let c := s.ctx s.cur
  c.outstanding.isSome || (relaxed && (decide (8 ≤ c.relaxed) || decide (64 ≤ (s.core (s.at s.cur)).relaxed)))

/-- A leading load of n values would overflow the load-value queue of 64 (R196). -/
def Ctx.queueFull (c : Ctx) (n : Nat) : Bool :=
  match c.twin with
  | none => false
  | some t => t.leader && decide (64 < lvqValues t.queue + n)

/-- A word with the opcode of a memory instruction: a load, store, FENCE or L1INV, an object instruction, an atomic, a bank command or SEND
(R192). -/
def memWord (w : Code) : Bool :=
  let op := Code.opc w
  !Code.side w && (Code.cls w == 0 || Code.cls w == 1) &&
    ((decide (0x10 ≤ op) && decide (op ≤ 0x1E)) || (decide (0x20 ≤ op) && decide (op ≤ 0x25))
      || (decide (0x28 ≤ op) && decide (op ≤ 0x3A)) || (decide (0x40 ≤ op) && decide (op ≤ 0x4F)) || op == 0x5C)

/-- Its X bit: the relaxed form (R22, R27, R285). -/
def relaxedWord (w : Code) : Bool :=
  let op := Code.opc w
  if (0x10 ≤ op ∧ op ≤ 0x16) ∨ (0x18 ≤ op ∧ op ≤ 0x1B) ∨ op = 0x20 ∨ op = 0x21 ∨ op = 0x24 ∨ op = 0x25 then w.getLsbD 8
  else (op == 0x22 || op == 0x23 || decide (0x48 ≤ op ∧ op ≤ 0x4F)) && w.getLsbD 2

/-- A bundle that decodes to no instruction, but starts with the word of a memory instruction that does not issue yet (R192, R193). -/
def State.wordHeld (s : State) (w : Code) : Bool := memWord w && s.memHeld (relaxedWord w)

/-- The issue of a memory instruction: held at its turn, before any check (R192, R193), or issued. -/
def State.issueMem (s : State) (i : Instr) (relaxed : Bool) (own : Option Trap) (k : Effect → State) : State :=
  if s.memHeld relaxed then s.holdIssue .issue else s.issueC i none own k

/-- The issue of a load of n values (R192, R193, R196). -/
def State.issueLoad (s : State) (i : Instr) (relaxed : Bool) (n : Nat) (own : Option Trap) (k : Effect → State) : State :=
  if (s.ctx s.cur).queueFull n then (s.holdIssue .issue).postOnce 16 .checkpointCompare s.cur else s.issueMem i relaxed own k

/-- Memory instructions of the core that wait to issue look again at their turns (R192, R193); a context that waits for a slot may
now find one to displace (R162). -/
def State.retryIssue (s : State) (core : Nat) : State :=
  let s := if (s.core core).ready.isEmpty then s else s.kick core
  (s.ctxs.filter fun x => x.2.at x.1 == core && decide (x.2.st = .parked) && decide (x.2.wait = .issue)).foldl
    (fun s x => s.awaken x.1) s

/-- The non-relaxed access of a context is complete (R191). -/
def State.freeOutstanding (s : State) (g : Nat) : State :=
  (s.modCtx g fun c => { c with outstanding := none }).retryIssue (s.at g)

/-- A relaxed access is done with its entries (R193). -/
def State.freeEntry (s : State) (a : Access) : State :=
  let s := s.modCtx a.gid fun c => if c.gen = a.gen then { c with relaxed := c.relaxed - 1 } else c
  (s.modCore a.core fun k => { k with relaxed := k.relaxed - 1 }).retryIssue a.core

/-- An access found by its name. -/
def State.acc (s : State) (id : Nat) : Option Access := s.accs.find? fun a => a.id == id

/-- An access changed. -/
def State.modAcc (s : State) (id : Nat) (f : Access → Access) : State :=
  { s with accs := s.accs.map fun a => if a.id == id then f a else a }

/-- An access taken off the list. -/
def State.dropAcc (s : State) (id : Nat) : State := { s with accs := s.accs.filter fun a => a.id != id }

/-- The time of an access whose requests are all served: that of the slowest and the cycles beyond it (R260, R392). -/
def Access.dueAt (a : Access) : Nat :=
  (a.parts.headD ⟨.cached, 0, [], [], [], .served, 0, 0, 0, none⟩).left + a.parts.foldl (fun d p => Nat.max d (p.done - p.left)) 0
    + a.extra

/-- The sectors whose poison mark a read of n bytes would meet (R411). -/
def State.poisoned (s : State) (place n : Nat) : Bool :=
  s.poison.any fun p => decide (p * 64 < place + n) && decide (place < p * 64 + 64)

/-- The poison marks that stay when these places are written: a write of a whole sector clears its mark (R411). -/
def State.poisonAfter (s : State) (ps : List Nat) : List Nat :=
  s.poison.filter fun p => !(List.range 64).all fun i => ps.contains (64 * p + i)

/-- Bytes written at their places. -/
def State.writePlaces (s : State) (ps : List (Nat × Byte)) : State :=
  { s with mem := ps.foldl (fun m x => memSet m x.1 x.2) s.mem, poison := s.poisonAfter (ps.map (·.1)) }

/-- A store to local memory that covered a sector in two rows clears its mark (R411). -/
def State.clearRows (s : State) (a : Access) : State :=
  if a.kind = .store ∧ a.fault = none ∧ s.fenced (dieOfCore a.core) a.domain a.domGen = false then
    { s with poison := s.poisonAfter (a.parts.flatMap fun p =>
        match p.tgt with
        | .bank k _ _ => p.bytes.map fun b => slabPlace k b.1
        | _ => []) }
  else s

/-- A request goes to a slice of this or another module, which may refuse it (R78, R83). -/
def Part.judged (p : Part) : Bool :=
  match p.tgt with
  | .slice _ _ | .away _ => true
  | _ => false

/-- A store that takes effect once each of its requests has found that it may, or not at all: one that parks, and one of several
requests of which one may be refused (R78, R83). -/
def Access.whole (a : Access) : Bool :=
  decide (a.kind = .store) && (a.parks || decide (1 < a.parts.length)) && a.parts.any Part.judged

/-- Every request of an access that may be refused has been served. -/
def Access.allJudged (a : Access) : Bool := a.parts.all fun p => !p.judged || decide (p.stage = .served)

/-- A request of a store has been let through and waits for the store's others. -/
def Part.waits (p : Part) : Bool := p.places != []

/-- The bytes of a store whose requests have all been let through are written, or none of them (R78, R83). -/
def State.applyStore (s : State) (id : Nat) : State :=
  match s.acc id with
  | none => s
  | some a =>
    if a.whole && a.allJudged then
      let s := if a.fault.isNone then a.parts.foldl (fun s p => s.writePlaces (p.places.zip p.data)) s else s
      s.modAcc id fun x => { x with parts := x.parts.map fun p => { p with places := [] } }
    else s

/-- The L1 sectors that a store which was refused had updated at its issue hold what they held no more: they leave the cache (R83,
R244). -/
def State.undoStore (s : State) (a : Access) : State :=
  if a.fault.isSome && decide (a.kind = .store) then
    let secs := a.parts.map fun p => p.addr.toNat / 64 * 64
    s.modCore a.core fun k => { k with l1d := k.l1d.filter fun x => !secs.contains x.addr }
  else s

/-- Once every request is served, the access ends at its time: a load's data returns, a write is acknowledged. -/
def State.settle (s : State) (id : Nat) : State :=
  match s.acc id with
  | none => s
  | some a =>
    if a.parts.all fun p => decide (p.stage = .served) then
      let due := Nat.max s.cycle a.dueAt
      let s := ((s.undoStore a).clearRows a).modAcc id fun a => { a with due := due }
      match a.kind with
      | .store | .bankCmd => s.post (due - s.cycle) .storeAck id
      | _ => s.post (due - s.cycle) .loadDataReturn id
    else s

/-- The sector that a load's request brings reaches the core with it (R244). -/
def State.postFill (s : State) (id k : Nat) (p : Part) : State :=
  if p.fill.isSome then s.post (p.done - s.cycle) .l1Fill id (k + 1) else s

/-- Each request that has not been served from a copy leaves for its target; what a remote-data cache gives reaches L1 in its time. -/
def State.sendParts (s : State) (id : Nat) (ps : List Part) : State :=
  ((List.range ps.length).zip ps).foldl (fun s x =>
    if x.2.stage = .sent then s.post (x.2.left - s.cycle + arriveAfter x.2.tgt x.2.lat) .accessAccepted id x.1
    else s.postFill id x.1 x.2) s

/-- An access as built at issue. -/
structure NewAcc where
  kind    : AccKind
  relaxed : Bool
  dests   : List RegName
  size    : Nat
  addr    : Word
  data    : List Byte
  useL1   : Bool
  parks   : Bool
  extra   : Nat
  bcmd    : Option BankCmd
  deriving DecidableEq, Repr

/-- An access with its requests, ready to leave. -/
def State.buildAccess (s : State) (g : Nat) (pc : Word) (n : NewAcc) (cs : List (Piece × Place)) : Access × State :=
  let c := s.ctx g
  let core := s.at g
  let id := s.nextId
  let s := s.fresh.2
  let reqs := cs.foldl (fun ps x => let t := chunkPart x.1 x.2; addChunk ps t.1 x.1.addr t.2) []
  let m := s.makeParts g core n.relaxed n.useL1 n.data reqs 0
  (⟨id, 0, g, c.gen, core, pc, n.kind, n.relaxed, n.dests, n.size, m.1, n.addr, c.domain, c.domGen, c.prv, n.parks, 0, [], [], none,
    0, false, n.bcmd, n.relaxed, n.extra, touchOf core (cs.map (·.2)), 0⟩, m.2)

/-- A part's times as cycles, from the launch on. -/
def Part.launch (p : Part) (now : Nat) : Part := { p with left := now + p.left, done := now + p.done }

/-- The context of an access that goes under way: its TOUCH bits, its entries or its place as the outstanding access, and its
pending registers (R186, R191, R193, R254). -/
def Ctx.withAccess (c : Ctx) (a : Access) : Ctx :=
  { c with
    touch := c.touch ||| a.touch
    relaxed := if a.relaxed then c.relaxed + 1 else c.relaxed
    outstanding := if a.relaxed then c.outstanding else some a.id
    pend := c.pend ++ ((a.dests.filter fun r => !r.isConst).map fun r => ⟨r, .load a.id⟩) }

/-- The core of an access that goes under way: its relaxed entry, and the L1 sectors that a store updates (R193, R244). -/
def Core.withAccess (k : Core) (a : Access) (ps : List Part) : Core :=
  { k with
    relaxed := if a.relaxed then k.relaxed + 1 else k.relaxed
    l1d := if a.kind = .store then storeParts k.l1d ps else k.l1d }

/-- An access goes under way, behind every access of its core that left before it (R245). -/
def State.launch (s : State) (a : Access) : State :=
  let ps := a.parts.map fun p => p.launch s.cycle
  let f := s.fresh
  let s := { f.2 with accs := s.accs ++ [{ a with seq := f.1 + 1, parts := ps, epoch := (s.core a.core).epoch }] }
  let s := s.modCtx a.gid fun c => c.withAccess a
  let s := s.modCore a.core fun k => k.withAccess a ps
  (s.sendParts a.id ps).settle a.id

/-- A store or bank command of a leading context is issued, and its action held until the comparator releases it (R196, R414): it is
among the context's accesses, and nothing of it leaves. -/
def State.holdAccess (s : State) (a : Access) : State :=
  let s := { s with accs := s.accs ++ [{ a with epoch := (s.core a.core).epoch }] }
  let s := s.modCtx a.gid fun c => (c.withAccess a).modTwin fun t =>
    { t with points := t.points ++ [⟨t.issued, s.bun, c.operands s.bun.op, some a.id, none⟩] }
  s.modCore a.core fun k => { k with relaxed := if a.relaxed then k.relaxed + 1 else k.relaxed }

/-- The action that the comparator held takes place, and has its place in every order, now (R306). -/
def State.launchHeld (s : State) (id : Nat) : State :=
  match s.acc id with
  | none => s
  | some a =>
    let ps := a.parts.map fun p => p.launch s.cycle
    let f := s.fresh
    let s := f.2.modAcc id fun a => { a with seq := f.1 + 1, parts := ps }
    let s := if a.kind = .store then s.modCore a.core fun k => { k with l1d := storeParts k.l1d ps } else s
    (s.sendParts id ps).settle id

/-- A compare point's access is held in a leading context (R196). -/
def State.holds (s : State) (g : Nat) (k : AccKind) : Bool :=
  (s.ctx g).twin.any (·.leader) && (decide (k = .store) || decide (k = .bankCmd))

/-- An access built and launched, or held for the comparator. -/
def State.startAccess (s : State) (g : Nat) (pc : Word) (n : NewAcc) (cs : List (Piece × Place)) : State :=
  let b := s.buildAccess g pc n cs
  if s.holds g n.kind then b.2.holdAccess b.1 else b.2.launch b.1

/-- A store to global memory that parks until its acknowledgement: through a PLB entry granting O, or in supervisor mode
(R83, R258). -/
def State.storeParks (s : State) (g : Nat) (relaxed : Bool) (cs : List (Piece × Place)) : Bool :=
  let c := s.ctx g
  !relaxed && cs.any fun x =>
    match x.2 with
    | .global _ _ _ => c.prv || Rights.cover (s.plbRights (s.at g) c.domain x.1.addr) 8
    | _ => false

end Sys2Proof.Machine
end

