-- ==== Sys2Proof/Machine/Requests.lean ====
section
/-!
DEFINITION. Messages on the networks, object requests and the paths they take (spec/04_objects.md R94 to R97, R109 to R114,
R126), and the probes of the touched-target mask (spec/10_memory.md R254).
-/
namespace Sys2Proof.Machine

/-! Messages. -/

/-- A message under way, and its name. -/
def State.sendMsg (s : State) (b : NetBody) : Nat × State :=
  let f := s.fresh
  (f.1, { f.2 with net := f.2.net ++ [⟨f.1, b⟩] })

/-- A message found by its name. -/
def State.msg (s : State) (id : Nat) : Option NetBody := (s.net.find? fun m => m.id == id).map (·.body)

/-- A message taken off the networks. -/
def State.dropMsg (s : State) (id : Nat) : State := { s with net := s.net.filter fun m => m.id != id }

/-! Object requests. -/

/-- The requester ids that are no contexts (R151). -/
def isReserved (ctxid : Nat) : Bool := decide (0xFFFFFF00 ≤ ctxid)

/-- Where a request starts: a number of its source, for the path, and the die (R99, R151). -/
def ObjReq.origin (r : ObjReq) : Nat × Nat :=
  if r.ctxid = 0xFFFFFFFF then (4096 + sliceOf (bits r.operand 45 45) (homeOf (bits r.operand 44 0)), bits r.operand 45 45)
  else if 0xFFFFFFF0 ≤ r.ctxid then (2000 + r.ctxid % 16, r.ctxid % 2)
  else if isReserved r.ctxid then (3000 + r.ctxid % 256, 0)
  else (coreOf r.ctxid, dieOfCore (coreOf r.ctxid))

/-- The die and the slice of an address. -/
def homeDie (a : Word) : Nat := bits a 45 45

/-- The home slice of a global address of this module (R66). -/
def homeSlice (a : Word) : Nat := sliceOf (homeDie a) (homeOf (bits a 44 0))

/-- The cycles of a request from its source to its home: those of every access on the hashed path (R245); a source that is no core has
a free value of its own. DESIGN CHOICE, notes/assumptions/4.md. -/
def ObjReq.leg (r : ObjReq) : Nat :=
  let o := r.origin
  if o.1 < Config.cores then pathTime o.1 (homeSlice r.addr) / 2
  else 85 + Config.freeLatency (2 ^ 41 + o.1 * 2 ^ 10 + homeSlice r.addr) % 31 + (if o.2 = homeDie r.addr then 0 else 55)

/-- The port at which a source meets the networks: a core's is its cluster's (R354). -/
def netPort (origin : Nat) : Nat := if origin < Config.cores then clusterOf origin else origin

/-- The round trip of a request between its source and its home: a free value of the path within R126's range of 190 to 260 cycles, and
110 to the other die; the same for all the cores of a cluster, whose WAKEs so keep their order (R102, R362).
DESIGN CHOICE, notes/assumptions/4.md. -/
def ObjReq.trip (r : ObjReq) : Nat :=
  2 * r.leg + 20 + Config.freeLatency (2 ^ 43 + netPort r.origin.1 * 2 ^ 10 + homeSlice r.addr) % 11

/-- The home distance of an address for a requester on a die (R95). -/
def dieScope (die : Nat) (a : Word) : Scope :=
  if bits a 55 46 ≠ Config.moduleNumber then .pod else if homeDie a = die then .die else .module

/-- The home distance of an address for a core (R95). -/
def homeScope (core : Nat) (a : Word) : Scope := dieScope (dieOfCore core) a

/-- A request leaves for its home: a CADD.cmb by way of the switch that may combine it (R109), any other straight; a home in
another module does not exist here and answers TRANSLATION (notes/assumptions/7.md). -/
def State.sendRequest (s : State) (r : ObjReq) : State :=
  if bits r.addr 55 46 ≠ Config.moduleNumber then
    let t := s.freeRange 1 4500
    let m := t.2.sendMsg (.objReply r 3 r.addr Cause.translation)
    m.2.post t.1 (if r.eng = 1 then .mxCtrReply else if r.eng = 2 then .cpActionReply else .objectReply) r.ctxid m.1
  else
    let m := s.sendMsg (.request r)
    if r.cmb then m.2.post (r.leg - 12) .switchCombine r.origin.2 m.1
    else m.2.post r.leg .objectRequestArrival (homeSlice r.addr) (m.1 + 1)

/-- The rights a requester's PLB grants over a copy range: R and W at s_b, and at s_b + 255 (R114). -/
def State.copyRights (s : State) (g : Nat) (b : Word) : Nat :=
  let c := s.ctx g
  let core := s.at g
  if c.prv then 15 else s.plbRights core c.domain b % 4 + 4 * (s.plbRights core c.domain (b + 255) % 4)

/-- The opcodes of the object instructions and untyped atomics (R113). -/
def objectOp : Instr → Nat
  | .oinit _ => 0x28
  | .ofree _ => 0x29
  | .oread _ => 0x2A
  | .cadd _ => 0x2B
  | .cwait _ => 0x2C
  | .cset _ => 0x2D
  | .barr _ => 0x2E
  | .bwait _ => 0x2F
  | .barw _ => 0x30
  | .ltake _ => 0x31
  | .lgive _ => 0x32
  | .qput _ => 0x33
  | .qget _ => 0x34
  | .kwait _ => 0x35
  | .ksig _ => 0x36
  | .kall _ => 0x37
  | .feget _ => 0x38
  | .feput _ => 0x39
  | .fepeek _ => 0x3A
  | .aadd _ => 0x40
  | .aswap _ => 0x41
  | .acas _ => 0x42
  | .amax _ => 0x43
  | .amin _ => 0x44
  | .aand _ => 0x45
  | .aor _ => 0x46
  | .axor _ => 0x47
  | _ => 0

/-- The release-type operations (R113). -/
def releaseOp (op : Nat) : Bool := [0x28, 0x2B, 0x2D, 0x2E, 0x30, 0x32, 0x33, 0x36, 0x37, 0x39].contains op

/-- The acquire-type operations (R113). -/
def acquireOp (op : Nat) : Bool := [0x2C, 0x2F, 0x30, 0x31, 0x34, 0x35, 0x38, 0x3A].contains op

/-- A result is returned whatever .ret says (R113). -/
def alwaysRet (op : Nat) : Bool := [0x2A, 0x34, 0x38, 0x3A].contains op || decide (0x40 ≤ op)

/-- A request of a context. -/
def State.ctxReq (s : State) (g op : Nat) (addr operand expect : Word) (ret nw cmb w32 : Bool) (sc : Scope) : ObjReq :=
  let c := s.ctx g
  ⟨s.nextId, op, addr, operand, expect, ret, nw, cmb, w32, sc, g, c.gen, 0, 0, s.copyRights g operand, c.domain, c.domGen,
    0, (s.partOfCore (s.at g)).getD 0, none, []⟩

/-- A request of the device that no context parks for, at pod scope: an engine's completion action, a join, a packet's completion, a
parent request (R108, R144, R169, R279). -/
def State.plainReq (s : State) (op : Nat) (addr operand : Word) (ctxid : Nat) (gen : BitVec 12) (eng lane vf packet : Nat) :
    ObjReq :=
  ⟨s.nextId, op, addr, operand, 0, false, false, false, false, .pod, ctxid, gen, eng, lane, 15, 0, 0, packet, vf, none, []⟩

/-! Probes (R254). -/

/-- The TOUCH bit of a request's target. -/
def targetBit (core : Nat) : Target → Option Nat
  | .bank k _ _ => touchBit core (.slab k 0)
  | .slice sl sec => touchBit core (.global Config.moduleNumber (sl / Config.slices) (64 * sec))
  | .away m => touchBit core (.global m 0 0)
  | .host => some 63
  | .cached => none
  | .census _ => none

/-- Every relaxed access of a context has been accepted by its targets (R254). -/
def State.allAccepted (s : State) (g : Nat) : Bool :=
  s.accs.all fun a => a.gid != g || !a.relaxed || a.parts.all fun p => decide (p.stage ≠ .sent)

/-- Every access of a context that a group of targets accepted has been served (R254, R289). -/
def State.groupServed (s : State) (g bit : Nat) : Bool :=
  s.accs.all fun a => a.gid != g || a.parts.all fun p =>
    decide (p.stage = .served) || targetBit a.core p.tgt != some bit

/-- The number of a slice, and of a group beyond the module, among the targets of probes; a bank's is core · 8 + bank. -/
def sliceProbe (sl : Nat) : Nat := 2 ^ 13 + sl

/-- The number of a TOUCH bit that stands for targets beyond the module. -/
def farProbe (bit : Nat) : Nat := 2 ^ 14 + bit

/-- The targets of the group that a TOUCH bit stands for, for an issuing core (R253). -/
def probeTargets (core bit : Nat) : List Nat :=
  let die := dieOfCore core
  let banks := fun (k : Nat) => (List.range 8).map fun b => 8 * k + b
  let cluster := fun (cl : Nat) => (List.range 8).flatMap fun k => banks (8 * cl + k)
  if bit < 8 then banks (clusterOf core * 8 + bit)
  else if bit < 16 then
    (List.range 64).flatMap fun c => if c % 8 = bit - 8 ∧ die * 64 + c ≠ clusterOf core then cluster (die * 64 + c) else []
  else if bit = 16 then (List.range 64).flatMap fun c => cluster ((1 - die) * 64 + c)
  else if bit < 49 then ((List.range Config.slices).filter fun h => h % 32 == bit - 17).map fun h => sliceProbe (sliceOf die h)
  else if bit < 57 then ((List.range Config.slices).filter fun h => h % 8 == bit - 49).map fun h => sliceProbe (sliceOf (1 - die) h)
  else [farProbe bit]

/-- The targets of the TOUCH bits of a mask; a core that is absent has none. -/
def State.probesOf (s : State) (core : Nat) (mask : Word) : List Nat :=
  ((maskBits mask).flatMap (probeTargets core)).filter fun t => decide (2 ^ 13 ≤ t) || (s.core (t / 8)).present

/-- A probe leaves for a target, on the path of R245. PROBE_ECHO is its arrival at a bank or slice, with 1 + the cycle at which it left,
or, with 0, its echo; beyond the module only the echo is an event. DESIGN CHOICE, notes/assumptions/21.md. -/
def State.sendProbe (s : State) (g core t : Nat) : State :=
  if t < 2 ^ 13 then s.post (1 + (slabTime core (t / 8) - 20) / 2) .probeEcho g t (s.cycle + 1)
  else if t < 2 ^ 14 then s.post (pathTime core (t - 2 ^ 13) / 2) .probeEcho g t (s.cycle + 1)
  else
    let r := if t - 2 ^ 14 < 63 then s.freeRange 2600 4500 else s.freeRange 400 4000
    r.2.post r.1 .probeEcho g t 0

/-- The targets of the TOUCH bits of a mask are probed, and their echoes awaited (R254). -/
def State.startProbes (s : State) (g : Nat) (mask : Word) : State :=
  let ts := s.probesOf (s.at g) ((s.ctx g).touch &&& mask)
  let s := s.modCtx g fun c => { c with probes := ts, relMask := mask }
  ts.foldl (fun s t => s.sendProbe g (s.at g) t) s

end Sys2Proof.Machine
end

