-- ==== Sys2Proof/Machine/Push.lean ====
section
/-!
DEFINITION. The push of engine commands: the static checks of a copy command (spec/12_copy_and_bank_units.md R273 to R278) and
of a matrix command (spec/14_matrix_unit.md R309 to R321), what a command captures, and its entry into its queue.
-/
namespace Sys2Proof.Machine

/-- The eight words of a format-E block (R19). -/
def Ctx.block (c : Ctx) (a : EReg) : List Word := (List.range 8).map fun k => c.getS (SReg.next a.first k)

/-- A word of a command. -/
def cw (ws : List Word) (k : Nat) : Word := ws.getD k 0

/-- The first failing word among checks in word order. DEDUCED, notes/assumptions/32.md. -/
def firstFail (checks : List (Nat × Bool)) : Option Nat :=
  (checks.filter (·.2)).map (·.1) |>.min?

/-- A format code, or the TFMT field it inherits (R51). -/
def inherit (code : Nat) (tfmt : BitVec 32) (lo : Nat) : Nat := if code = 0 then tfmt.toNat / 2 ^ lo % 16 else code

/-! Copy commands. -/

/-- The group of elements that a format's rows are made of: elements and bytes (R52, R54). -/
def fmtGroup (code : Nat) : Nat × Nat :=
  match code with
  | 1 | 2 | 6 => (1, 1)
  | 3 | 4 | 7 => (1, 2)
  | 5 | 8 => (1, 4)
  | 9 | 11 => (2, 1)
  | 10 | 12 => (8, 3)
  | 13 => (5, 1)
  | _ => (1, 1)

/-- The static checks of a copy command: the number of the first word that fails (R278). -/
def copyFail (ws : List Word) (tfmt : BitVec 32) : Option Nat :=
  let c := cw ws
  let kind := bits (c 0) 7 0
  let conv := kind == 5
  let sf := inherit (bits (c 0) 11 8) tfmt 0
  let df := inherit (bits (c 0) 15 12) tfmt 8
  let act := bits (c 0) 17 16
  let rowlen := bits (c 4) 31 0
  let rows := bits (c 4) 63 32
  firstFail [
    (0, kind == 0 || decide (5 < kind) || bits (c 0) 31 20 != 0),
    (0, !conv && bits (c 0) 15 8 != 0),
    (0, conv && (decide (13 < sf) || decide (12 < df) || sf == 0 || df == 0)),
    (1, if kind = 4 then c 1 != 0 else bits (c 1) 63 57 != 0),
    (2, bits (c 2) 63 57 != 0),
    (3, (kind == 1 && c 3 != 0) || (kind == 4 && bits (c 3) 31 0 != 0)),
    (4, rowlen == 0 || rows == 0 || (kind == 1 && rows != 1)),
    (4, conv && ((fmtGroup df).1 == 2 && rowlen % 2 != 0 || (fmtGroup df).1 == 8 && rowlen % 8 != 0
          || sf == 13 && rowlen % 5 != 0)),
    (5, if act = 0 then c 5 != 0 else bits (c 5) 63 57 != 0 || bits (c 5) 5 0 != 0),
    (6, act == 0 && c 6 != 0),
    (7, (kind == 1 || kind == 2) && c 7 != 0),
    (7, kind == 3 && bits (c 7) 63 57 != 0),
    (7, conv && bits (c 7) 63 4 != 0)]

/-- The scope of an address for an engine's reading (R282). -/
def State.memScope (s : State) (core : Nat) (a : Word) : Scope :=
  if bits a 56 56 = 1 then
    if s.slabCluster core a == some (clusterOf core) then .cluster
    else if bits a 45 45 = dieOfCore core then .die else .module
  else homeScope core a

/-- A copy command as captured at the push (R276, R282). -/
def State.copyCmd (s : State) (g : Nat) (ws : List Word) : CpCmd :=
  let c := s.ctx g
  let inh := bits (cw ws 7) 3 3 == 1
  ⟨0, ws, inherit (bits (cw ws 0) 11 8) c.tfmt 0, inherit (bits (cw ws 0) 15 12) c.tfmt 8,
    rndOfCode (if inh then c.tfmt.toNat / 2 ^ 12 % 4 else bits (cw ws 7) 1 0),
    if inh then c.tfmt.getLsbD 14 else bits (cw ws 7) 2 2 == 1,
    g, c.gen, s.at g, c.domain, c.domGen, c.prv, 0, 0, 0, 0, none, 0, false⟩

/-- The TOUCH bits that a push of a copy command releases (R282). -/
def State.copyMask (s : State) (g : Nat) (ws : List Word) : Word :=
  let core := s.at g
  let kind := bits (cw ws 0) 7 0
  if bits (cw ws 0) 19 19 = 1 ∨ kind = 4 then 0
  else
    let src := s.memScope core (cw ws 1)
    scopeMask core (if kind = 3 then src.max (s.memScope core (cw ws 7)) else src)

/-- A copy command enters its cluster's queue with the next sequence number; a lane may take it 8 cycles on (R269, R290). -/
def State.acceptCopy (s : State) (cmd : CpCmd) : State :=
  let cl := clusterOf cmd.core
  let n := (s.cluster cl).cpSeq
  (s.modCluster cl fun x => { x with cpQueue := x.cpQueue ++ [{ cmd with seq := n, queued := s.cycle }], cpSeq := n + 1 }).post 8 .cpLaneStart cl

/-! Matrix commands. -/

/-- A line's bytes and its slot by format (R312). -/
def lineOf (code : Nat) : Nat × Nat :=
  match code with
  | 4 => (32, 32)
  | 9 | 11 => (8, 8)
  | 10 | 12 => (6, 8)
  | _ => (16, 16)

/-- The pairings of the multiplier (R55). -/
def pairing (af bf : Nat) : Bool :=
  ([1, 2, 4].contains af && [1, 2, 9, 10, 4].contains bf) || (af == 6 && [11, 12, 6].contains bf)

/-- The bytes of an element of an output format. -/
def elemBytes (code : Nat) : Nat := (fmtGroup code).2

/-- The failing words of an operand descriptor that stands in words k and k+1 (R311 to R314, R318, R321). -/
def descFail (ws : List Word) (k : Nat) (used vec : Bool) (slot tile lineBytes kg m : Nat) : List (Nat × Bool) :=
  let d0 := cw ws k
  let d1 := cw ws (k + 1)
  let src := bits d0 58 57
  if !used then [(k, d0 != 0), (k + 1, d1 != 0)]
  else
    [(k, decide (1 < src) || (src == 1 && !vec) || bits d0 63 59 != 0),
     (k, src == 0 && bits d0 56 0 % slot != 0),
     (k, src == 1 && (bits d0 56 4 != 0 || decide ((16 - bits d0 3 0) * 64 < kg * m * lineBytes))),
     (k + 1, bits d1 63 47 != 0),
     (k + 1, src == 0 && (bits d1 19 0 % slot != 0 || (if tile = 0 then bits d1 43 20 != 0 else bits d1 43 20 % slot != 0))),
     (k + 1, src == 0 && bits d1 46 44 != 0 && bits d0 56 56 == 0),
     (k + 1, src == 1 && bits d1 46 0 != 0)]

/-- The static checks of a matrix command: the number of the first word that fails (R310, R321). -/
def matrixFail (ws : List Word) (tfmt : BitVec 32) (tscale : BitVec 57) (twinned : Bool) : Option Nat :=
  let m := cw ws
  let kind := bits (m 0) 7 0
  let mma := kind == 1 || kind == 2
  let gmma := kind == 6
  let mul := mma || gmma
  let ld := kind == 4
  let st := kind == 5
  let af := inherit (bits (m 0) 13 10) tfmt 0
  let bf := inherit (bits (m 0) 17 14) tfmt 4
  let o := inherit (bits (m 0) 21 18) tfmt 8
  let kg := bits (m 0) 43 32
  let rows := bits (m 0) 50 44
  let cols := bits (m 0) 57 51
  let grouped := mul && (bf == 9 || bf == 10)
  let plain := [5, 8].contains o
  firstFail ([
    (0, kind == 0 || decide (6 < kind) || bits (m 0) 31 28 != 0 || bits (m 0) 63 58 != 0 || (gmma && bits (m 0) 9 9 != 0)),
    (0, if mul then !pairing af bf else bits (m 0) 17 10 != 0),
    (0, if ld then !([3, 4, 5, 8].contains o) else if st then !([1, 2, 3, 4, 5, 6, 7, 8].contains o) else bits (m 0) 21 18 != 0),
    (0, !st && (bits (m 0) 24 22 != 0 || bits (m 0) 27 27 != 0)),
    (0, st && plain && bits (m 0) 24 22 != 0),
    (0, if mul then kg == 0 else kg != 0),
    (0, rows == 0 || cols == 0 || decide ((if gmma then 6 else 64) < rows) || decide ((if gmma then 10 else 64) < cols)),
    (0, gmma && twinned),
    (5, if grouped then bits (m 5) 62 57 != 0 || (bits (m 5) 63 63 == 1 && bits (m 5) 56 0 != 0)
          || (if bits (m 5) 63 63 = 1 then tscale.getLsbD 0 else (m 5).getLsbD 0)
        else m 5 != 0),
    (6, if grouped then (m 6).getLsbD 0 else bits (m 6) 15 0 != 0),
    (6, if gmma then bits (m 6) 23 16 == 0 || decide (16 < bits (m 6) 23 16) || decide (bits (m 6) 23 16 < (rows * cols + 3) / 4)
        else bits (m 6) 23 16 != 0),
    (6, bits (m 6) 31 24 != 0 || (bits (m 0) 25 25 == 0 && bits (m 6) 63 32 != 0)),
    (7, if bits (m 0) 26 26 = 1 then bits (m 7) 63 57 != 0 || bits (m 7) 5 0 != 0 else m 7 != 0)]
    ++ descFail ws 1 (mul || ld || st) mma (if mul then (lineOf af).2 else elemBytes o) (if mul then 1 else 0)
        (lineOf af).1 kg rows
    ++ descFail ws 3 mul false (lineOf bf).2 1 (lineOf bf).1 kg rows)

/-- A matrix command as captured at the push (R314, R315, R320). -/
def State.matrixCmd (s : State) (g : Nat) (ws : List Word) : MxCmd :=
  let c := s.ctx g
  let m0 := cw ws 0
  let inh := bits m0 27 27 == 1
  let f := bits (cw ws 1) 3 0
  let vecs := if bits (cw ws 1) 58 57 = 1
    then (List.range (16 - f)).flatMap fun k => bytesOfNat 64 (c.getV (Fin.ofNat 16 (f + k))).toNat else []
  ⟨0, s.at g, ws, inherit (bits m0 13 10) c.tfmt 0, inherit (bits m0 17 14) c.tfmt 4, inherit (bits m0 21 18) c.tfmt 8,
    rndOfCode (if inh then c.tfmt.toNat / 2 ^ 12 % 4 else bits m0 23 22),
    if inh then c.tfmt.getLsbD 14 else bits m0 24 24 == 1,
    if bits (cw ws 5) 63 63 = 1 then c.tscale.setWidth 64 else word (bits (cw ws 5) 56 0),
    vecs, g, c.gen, c.domain, c.domGen, c.prv, false⟩

/-- The memory operands of a matrix command (R303). -/
def MxCmd.operands (m : MxCmd) : List Word :=
  let kind := bits (cw m.words 0) 7 0
  let a := if kind ≠ 3 ∧ bits (cw m.words 1) 58 57 = 0 then [word (bits (cw m.words 1) 56 0)] else []
  let b := if kind = 1 ∨ kind = 2 ∨ kind = 6 then [word (bits (cw m.words 3) 56 0)] else []
  let sc := if b ≠ [] ∧ (m.bf = 9 ∨ m.bf = 10) then [m.sb] else []
  a ++ b ++ sc

/-- The TOUCH bits that the push of a matrix command releases (R303). -/
def State.matrixMask (s : State) (g : Nat) (m : MxCmd) : Word :=
  let core := s.at g
  match m.operands with
  | [] => 0
  | a :: rest => scopeMask core (rest.foldl (fun sc x => sc.max (s.memScope core x)) (s.memScope core a))

/-- A matrix command enters its core's queue with the next sequence number (R308). -/
def State.acceptMatrix (s : State) (cmd : MxCmd) : State :=
  let core := cmd.core
  let n := (s.core core).mx.seq
  (s.modCore core fun k => { k with mx := { k.mx with queue := k.mx.queue ++ [{ cmd with seq := n }], seq := n + 1 } }).postOnce 1
    .mxCommandStart core

/-- The entries in use of a matrix queue (R308). -/
def MatrixUnit.used (m : MatrixUnit) : Nat := m.queue.length + (if m.run.isSome then 1 else 0)

end Sys2Proof.Machine
end

