-- ==== Sys2Proof/Machine/Release.lean ====
section
/-!
DEFINITION. Releases (spec/04_objects.md R96, spec/10_memory.md R254, R262, R263, spec/13_consistency.md R301): the wait for
acceptance, the probes, and what a context sends once their echoes are back; and the engines' queues when they are full.
-/
namespace Sys2Proof.Machine

/-! Queues of the engines. -/

/-- The place of a waiting pusher in cycle order from now; one that a lease moved out of its slot comes after those in slots. -/
def State.pusherTurn (s : State) (c : Ctx) : Nat :=
  match c.slot with
  | some k => turnAt k s.cycle
  | none => s.cycle + 16

/-- Of the waiting contexts with a property, the first in cycle order from now (R282, R308). -/
def State.firstPusher (s : State) (p : Nat → Ctx → Bool) : Option Nat :=
  (s.ctxs.filter fun x => [CtxState.parked, .cached, .spilled].contains x.2.st && p x.1 x.2).foldl (fun best x =>
    match best with
    | none => some x.1
    | some g => if s.pusherTurn (s.ctx g) ≤ s.pusherTurn x.2 then some g else some x.1) none

/-- A copy command of a context is pushed, or waits for a queue entry (R282). -/
def State.pushCopy (s : State) (g : Nat) (cmd : CpCmd) (d : SReg) : State :=
  let cl := s.cluster (clusterOf cmd.core)
  if 64 ≤ cl.cpQueue.length then s.park g .cpq
  else (s.acceptCopy cmd).completeHeld g [setS d (cl.cpSeq.setWidth 64)]

/-- The leader of a pair, for its trailing context. -/
def State.myLeader (s : State) (g : Nat) : Option Nat :=
  match (s.ctx g).twin with
  | some t => if t.leader then none else some t.partner
  | none => none

/-- The result of a trailing context's MXC: what the leader's unit returned, taken from the queue (R417). -/
def State.mxResult (s : State) (g : Nat) (own : List RegWrite) : List RegWrite × State :=
  match s.myLeader g with
  | none => (own, s)
  | some l =>
    match (s.ctx l).twin with
    | none => (own, s)
    | some t =>
      match t.queue[t.taken]? with
      | some ⟨_, .results ws⟩ => (ws, s.modCtx l fun c => { c with twin := some { t with queue := t.queue.eraseIdx t.taken } })
      | _ => (own, s)

/-- A matrix command of a context is pushed, or waits for a queue entry (R320). -/
def State.pushMatrix (s : State) (g : Nat) (cmd : MxCmd) (d : SReg) : State :=
  let mx := (s.core (s.at g)).mx
  if 32 ≤ mx.used then s.park g .mxq
  else
    let r := (s.acceptMatrix cmd).mxResult g [setS d (mx.seq.setWidth 64)]
    r.2.completeHeld g r.1

/-- A freed copy-queue entry goes to the first waiting pusher of the cluster (R282). -/
def State.grantCopy (s : State) (cl : Nat) : State :=
  match s.firstPusher fun g c => clusterOf (c.at g) == cl && decide (c.wait = .cpq) with
  | none => s
  | some g =>
    match (s.ctx g).held with
    | some (.copy cmd d) => s.pushCopy g cmd d
    | _ => s

/-- A freed matrix-queue entry goes to the first waiting pusher of the core (R308). -/
def State.grantMatrix (s : State) (core : Nat) : State :=
  match s.firstPusher fun g c => c.at g == core && decide (c.wait = .mxq) with
  | none => s
  | some g =>
    match (s.ctx g).held with
    | some (.matrix cmd d) => s.pushMatrix g cmd d
    | _ => s

/-! Task records and new contexts. -/

/-- The waits of the thieves of a cluster end, since one of its cores pushed a record, and their next ones last 256 cycles (R168). -/
def State.wakeThieves (s : State) (cl : Nat) : State :=
  (List.range 8).foldl (fun s k =>
    let core := 8 * cl + k
    let s := s.modCore core fun x => { x with thief := { x.thief with wait := 256 } }
    if (s.core core).thief.until_.isSome then s.postSoon 0 .stealBackoffEnd core else s) s

/-- A deque's port is given to an operation, in the first cycle in which it is free (R167). -/
def State.useDeque (s : State) (core : Nat) : State :=
  s.modCore core fun k => { k with dequeAt := Nat.max k.dequeAt s.cycle + 1 }

/-- A record pushed at the bottom of a deque of at most 128 (R165, R173); d receives 0, or 1 when it is full. -/
def State.pushTask (s : State) (g : Nat) (t : TaskRec) (d : SReg) : State :=
  let core := s.at g
  let k := s.core core
  if 128 ≤ k.deque.length then s.completeHeld g [setS d 1]
  else
    let s := s.setCore core { k with deque := t :: k.deque }
    let s := s.modPacket (t.packet / 4096) (t.packet % 4096) fun p => { p with records := p.records + 1 }
    ((s.wakeThieves (clusterOf core)).kick core).completeHeld g [setS d 0]

/-- A FORK's push reaches the port of its core's deque: it takes place, or waits parked for the cycle that the port gives it (R167). -/
def State.reachDeque (s : State) (g : Nat) (t : TaskRec) (d : SReg) : State :=
  let core := s.at g
  let k := s.core core
  let u := s.useDeque core
  if k.dequeAt ≤ s.cycle then u.pushTask g t d else (u.park g .answer).post (k.dequeAt - s.cycle) .slotFill core (g + 1)

/-- A FORK's push that waited for the port takes place. -/
def State.pushHeld (s : State) (g : Nat) : State :=
  match (s.ctx g).held with
  | some (.fork t d) => if (s.ctx g).wait = .answer then s.pushTask g t d else s
  | _ => s

/-- The domain generation of a domain on a die (R385). -/
def State.domGenOf (s : State) (die : Nat) (dom : BitVec 16) : BitVec 8 := (mapGet (s.die die).domGens dom.toNat).getD 0

/-- The context a SPAWN creates; the class of its entry word is checked at its first fetch (R149, R172).
DEDUCED, notes/assumptions/47.md. -/
def Ctx.spawned (c : Ctx) (index : BitVec 32) (pc : Word) : Ctx :=
  { Ctx.initial with
    s := ((((Ctx.initial.s.set 3 (index.setWidth 64)).set 4 c.s[4]).set 5 c.s[5]).set 6 c.s[6]).set 7 c.s[7]
    pc := pc, tfmt := c.tfmt, tscale := c.tscale, domain := c.domain, prio := c.prio, pre := c.pre, packet := c.packet
    twinned := c.twinned, vectoring := true }

/-- The time of a SPAWN, from leaving to the spawner's next issue (R177). -/
def State.spawnTime (s : State) (a b : Nat) : Nat × State :=
  if clusterOf a = clusterOf b then (60, s)
  else if dieOfCore a = dieOfCore b then s.freeRange 200 260 else s.freeRange 310 370

/-- The creation of a context leaves for its core (R172). -/
def State.sendSpawn (s : State) (g core : Nat) (index : BitVec 32) (pc : Word) : State :=
  let t := s.spawnTime (s.at g) core
  let m := t.2.sendMsg (.create t.1 core ((s.ctx g).spawned index pc) g)
  ((m.2.post (t.1 / 2) .spawnCreation core m.1).park g .answer).modCtx g fun c => { c with answer := some m.1 }

/-! SEND. -/

/-- The round trip of a SEND: a free value of the pair of network ports within R347's range, so that messages between two ports keep
their order (R245, R354). -/
def sendTrip (a b : Nat) : Nat :=
  if a = b then 20 else if clusterOf a = clusterOf b then 40
  else 190 + Config.freeLatency (2 ^ 42 + clusterOf a * 2 ^ 10 + clusterOf b) % 71 + (if dieOfCore a = dieOfCore b then 0 else 110)

/-- A USER message leaves for its core (R343). A module that is not in the pod is refused (notes/assumptions/7.md). -/
def State.sendUser (s : State) (g dest : Nat) (w0 w2 w3 : Word) (nw : Bool) : State :=
  let m := s.sendMsg (.user dest ⟨dest, 0, w0, word g, w2, w3⟩ g nw)
  ((m.2.post (sendTrip (s.at g) (coreOf dest) / 2) .messageArrival (coreOf dest) m.1).park g .answer).modCtx g fun c =>
    { c with answer := some m.1 }

/-! Releases. -/

/-- The TOUCH bit of an object request's home slice (R254). -/
def Ctx.touched (c : Ctx) (core : Nat) (a : Word) : Ctx :=
  { c with touch := c.touch ||| touchOf core [.global (bits a 55 46) (bits a 45 45) (bits a 44 0)] }

/-! KILL (R384). -/

/-- A KILL whose target is not to be started: it is being killed, or drains its QUIT (R384). -/
def Ctx.notStarted (c : Ctx) : Bool := c.dying || c.wait = .drain

/-- KILLED reaches a context (R365). -/
def State.sendKill (s : State) (g killer : Nat) : State :=
  let c := s.ctx g
  (s.setCtx g { c with async := Cause.killed :: c.async, killer := killer }).postAsync g

/-- The contexts that are not Free with a domain, but the issuer (R384). DEDUCED, notes/assumptions/53.md. -/
def State.domainContexts (s : State) (dom : Nat) (but : Nat) : List Nat :=
  (s.ctxs.filter fun x => decide (x.2.st ≠ .free) && x.2.domain.toNat == dom && x.1 != but).map (·.1)

/-- A KILL that names its own issuer (R384). -/
def killsSelf (dom : Bool) (x : Word) (g : Nat) : Bool := !dom && bits x 31 0 == g

/-- What a KILL came to: the targets it started, the ones whose records are still to be written, and the state. -/
structure Killing where
  count : Nat
  left  : List Nat
  state : State
  deriving DecidableEq, Repr

/-- The targets of a KILL of another context or of a domain are started (R384). -/
def State.killAll (s : State) (g : Nat) (dom : Bool) (x : Word) : Killing :=
  let ts := if dom then s.domainContexts (bits x 15 0) g
            else if (s.ctx (bits x 31 0)).st = .free then [] else [bits x 31 0]
  let go := ts.filter fun g => !(s.ctx g).notStarted
  let s := go.foldl (fun s h => s.sendKill h g) s
  ⟨go.length, ts.filter fun g => (s.ctx g).dying, s⟩

/-- A KILL that the comparator released (R306, R417). -/
def State.fireKill (s : State) (g : Nat) (dom : Bool) (x : Word) (d : SReg) (nw : Bool) : State :=
  if killsSelf dom x g then s.startKill g Cause.killed 0 (s.ctx g).heldPc g
  else
    let k := s.killAll g dom x
    if nw || k.left.isEmpty then k.state.completeHeld g [setS d (word k.count)]
    else (k.state.park g (.kills k.left)).modCtx g fun c => { c with dest := d, answer := some k.count }

/-- What a context held leaves (R96, R172, R173, R262, R263, R282, R320). A store that cannot be refused passes nothing to a trailer, nor
does HALT (R417). -/
def State.fireHeld (s : State) (g : Nat) : State :=
  let c := s.ctx g
  match c.held with
  | none => s
  | some (.object r) =>
    ((s.setCtx g ({ c with held := none, askAddr := r.addr }.touched (s.at g) r.addr)).sendRequest r).park g (.object r.id false)
  | some (.store a) =>
    let s := (s.setCtx g { c with held := none }).launch a
    if a.parks then s.park g (.access a.id) else (s.applyOwn g []).awaken g
  | some (.fence sc) =>
    let s := if sc = .core then s else s.invalidateL1Late g (s.at g)
    if c.rcause = 0 then s.completeHeld g [] else (s.applyHeld g []).raiseRecorded g
  | some (.spawn core index pc _) => s.sendSpawn g core index pc
  | some (.fork t d) => s.reachDeque g t d
  | some (.send dest w0 w2 w3 nw) => s.sendUser g dest w0 w2 w3 nw
  | some (.copy cmd d) => s.pushCopy g cmd d
  | some (.matrix cmd d) => s.pushMatrix g cmd d
  | some (.kill dom x d nw) => s.fireKill g dom x d nw
  | some .halt => (s.applyOwn g []).park g (.halted false)
  | some .quit => ((s.setCtx g { c with held := none }).park g .drain).post 0 .quitComplete g

/-- A release goes on as far as it can: once every relaxed access is accepted its probes leave; once their echoes are back the
touched bits are cleared and what it held leaves. -/
def State.advanceRelease (s : State) (g : Nat) : State :=
  let c := s.ctx g
  match c.wait with
  | .accepted =>
    if !s.allAccepted g then s
    else
      let s := s.startProbes g c.relMask
      if (s.ctx g).probes = [] then (s.modCtx g fun c => { c with touch := c.touch &&& ~~~c.relMask }).fireHeld g
      else s.park g .probes
  | .probes =>
    if c.probes = [] then (s.setCtx g { c with touch := c.touch &&& ~~~c.relMask }).fireHeld g else s
  | _ => s

/-- The compare point in issue stands at the comparator: its bundle and its operands (R414). -/
def State.notePoint (s : State) (acc : Option Nat) : State :=
  s.modCtx s.cur fun c => c.modTwin fun t =>
    { t with points := t.points ++ [⟨t.issued, s.bun, c.operands s.bun.op, acc, none⟩] }

/-- The bundle in issue, a compare point of the leader of a pair, holds its action, with the release that precedes it, until the
comparator releases it; its slot parks (R196, R413). -/
def State.holdAction (s : State) (e : Effect) (h : Held) (mask : Word) (d : SReg) : State :=
  ((s.notePoint none).retireParked e .comparator).modCtx s.cur fun c => { c with held := some h, relMask := mask, dest := d }

/-- What a context holds leaves, after the release at the targets of its mask; an empty mask releases nothing. -/
def State.startRelease (s : State) (g : Nat) : State := if (s.ctx g).relMask = 0 then s.fireHeld g else s.advanceRelease g

/-- The comparator has released the compare point at which the leader is parked: its action takes place now (R306). -/
def State.firePoint (s : State) (g : Nat) : State :=
  if (s.ctx g).wait = .comparator then (s.modCtx g fun c => { c with wait := .accepted }).startRelease g else s

/-- A FENCE is no compare point (R413). -/
def Held.isPoint : Held → Bool
  | .fence _ => false
  | _ => true

/-- The bundle in issue releases at the targets of a mask, with what it sends then. -/
def State.beginRelease (s : State) (e : Effect) (mask : Word) (h : Held) (d : SReg) : State :=
  if s.leads && h.isPoint then s.holdAction e h mask d
  else ((s.retireParked e .accepted).modCtx s.cur fun c => { c with held := some h, relMask := mask, dest := d }).startRelease s.cur

end Sys2Proof.Machine
end

