-- ==== Sys2Proof/Machine/Memory.lean ====
section
/-!
DEFINITION. The memory instructions: scalar, vector, strided and quad loads and stores, LDA, STL, FENCE and L1INV
(spec/10_memory.md R255 to R265, spec/19_gaussian_messages.md R392).
-/
namespace Sys2Proof.Machine

/-- The checks of an access's pieces, and their requests. -/
def State.tryPieces (s : State) (am : AddrMode) (align : Nat) (need : Rights) (host : Bool) (ps : List Piece) :
    Except Trap (List (Piece × Place)) := s.placePieces s.cur am align need host ps

/-- The cause that a check found, if any. -/
def causeOf {α : Type} : Except Trap α → Option Trap
  | .error t => some t
  | .ok _ => none

/-- The value of a check that passed. -/
def okOf {α : Type} : Except Trap (List α) → List α
  | .error _ => []
  | .ok x => x

/-- The forms a load or store takes: access, pieces, alignment, mode. -/
structure MemForm where
  am     : AddrMode
  align  : Nat
  host   : Bool
  pieces : List Piece
  rlx    : Bool
  deriving DecidableEq, Repr

/-- Relaxed host-window accesses are carried as non-relaxed ones (R137). -/
def MemForm.relaxed (f : MemForm) : Bool := f.rlx && !f.pieces.any fun p => isHost p.addr

/-- A load (R257): its destinations are pending until the data returns; its values go to the trailing context of a pair
(R195). -/
def State.loadOp (s : State) (i : Instr) (f : MemForm) (kind : AccKind) (dests : List RegName) (size values extra : Nat) :
    State :=
  let cs := s.tryPieces f.am f.align 1 f.host f.pieces
  let ea := (f.pieces.headD ⟨0, 0, 0⟩).addr
  s.issueLoad i f.relaxed values (causeOf cs) fun e =>
    let id := s.nextId
    let s := s.startAccess s.cur (s.ctx s.cur).pc ⟨kind, f.relaxed, dests, size, ea, [], true, false, extra, none⟩ (okOf cs)
    (s.passTwin s.cur (.waiting id ea values)).retire e

/-- A store (R258): it completes when its target acknowledges it; some park their slot until then (R83). -/
def State.storeOp (s : State) (i : Instr) (f : MemForm) (data : List Byte) (extra : Nat) : State :=
  let cs := s.tryPieces f.am f.align 2 f.host f.pieces
  let ea := (f.pieces.headD ⟨0, 0, 0⟩).addr
  s.issueMem i f.relaxed (causeOf cs) fun e =>
    let parks := s.storeParks s.cur f.relaxed (okOf cs)
    let id := s.nextId
    let s := s.startAccess s.cur (s.ctx s.cur).pc
      ⟨.store, f.relaxed, [], data.length, ea, data, false, parks, extra, none⟩ (okOf cs)
    if parks then s.retireParked e (.access id) else s.retire e

/-- A scalar access of a format-M instruction (R256). -/
def State.formM (s : State) (o : MArgs) (size : Nat) : MemForm :=
  ⟨o.am, size, true, [⟨(s.ctx s.cur).getS o.base + o.off.value size, 0, size⟩], o.x⟩

/-- A scalar load. -/
def State.loadS (s : State) (i : Instr) (o : MArgs) (size : Nat) (sg : Bool) : Host.Outcome State Fault Refusal :=
  .next (s.loadOp i (s.formM o size) (.load size sg) [.s o.d] size 1 0)

/-- A scalar store. -/
def State.storeS (s : State) (i : Instr) (o : MArgs) (size : Nat) : Host.Outcome State Fault Refusal :=
  .next (s.storeOp i (s.formM o size) (bytesOfNat size ((s.ctx s.cur).getS o.d).toNat) 0)

/-- LDB: a byte, sign-extended (R257). -/
def execLdb (o : MArgs) (s : State) : Host.Outcome State Fault Refusal := s.loadS (.ldb o) o 1 true

/-- LDBU: a byte, zero-extended (R257). -/
def execLdbu (o : MArgs) (s : State) : Host.Outcome State Fault Refusal := s.loadS (.ldbu o) o 1 false

/-- LDH: two bytes, sign-extended (R257). -/
def execLdh (o : MArgs) (s : State) : Host.Outcome State Fault Refusal := s.loadS (.ldh o) o 2 true

/-- LDHU: two bytes, zero-extended (R257). -/
def execLdhu (o : MArgs) (s : State) : Host.Outcome State Fault Refusal := s.loadS (.ldhu o) o 2 false

/-- LDW: four bytes, sign-extended (R257). -/
def execLdw (o : MArgs) (s : State) : Host.Outcome State Fault Refusal := s.loadS (.ldw o) o 4 true

/-- LDWU: four bytes, zero-extended (R257). -/
def execLdwu (o : MArgs) (s : State) : Host.Outcome State Fault Refusal := s.loadS (.ldwu o) o 4 false

/-- LDD: eight bytes (R257). -/
def execLdd (o : MArgs) (s : State) : Host.Outcome State Fault Refusal := s.loadS (.ldd o) o 8 false

/-- STB: the low byte of s_d (R258). -/
def execStb (o : MArgs) (s : State) : Host.Outcome State Fault Refusal := s.storeS (.stb o) o 1

/-- STH: the low two bytes (R258). -/
def execSth (o : MArgs) (s : State) : Host.Outcome State Fault Refusal := s.storeS (.sth o) o 2

/-- STW: the low four bytes (R258). -/
def execStw (o : MArgs) (s : State) : Host.Outcome State Fault Refusal := s.storeS (.stw o) o 4

/-- STD: eight bytes (R258). -/
def execStd (o : MArgs) (s : State) : Host.Outcome State Fault Refusal := s.storeS (.std o) o 8

/-- LDA: an acquiring LDD; at cluster scope or wider the L1 data cache is invalidated first (R261). -/
def execLda (o : ScArgs) (s : State) : Host.Outcome State Fault Refusal :=
  let ea := (s.ctx s.cur).getS o.base + o.off.value 8
  let f : MemForm := ⟨o.am, 8, true, [⟨ea, 0, 8⟩], false⟩
  let cs := s.tryPieces f.am 8 1 true f.pieces
  .next (s.issueLoad (.lda o) false 1 (causeOf cs) fun e =>
    let id := s.nextId
    let s := if o.sc = .core then s else s.invalidateL1 (s.at s.cur)
    let s := s.startAccess s.cur (s.ctx s.cur).pc ⟨.lda o.sc, false, [.s o.d], 8, ea, [], true, false, 0, none⟩ (okOf cs)
    (s.passTwin s.cur (.waiting id ea 1)).retire e)

/-- STL: a releasing STD (R262). -/
def execStl (o : ScArgs) (s : State) : Host.Outcome State Fault Refusal :=
  let c := s.ctx s.cur
  let ea := c.getS o.base + o.off.value 8
  let cs := s.tryPieces o.am 8 2 true [⟨ea, 0, 8⟩]
  .next (s.issueMem (.stl o) false (causeOf cs) fun e =>
    let b := s.buildAccess s.cur c.pc
      ⟨.store, false, [], 8, ea, bytesOfNat 8 (c.getS o.d).toNat, false, s.storeParks s.cur false (okOf cs), 0, none⟩ (okOf cs)
    b.2.beginRelease e (scopeMask (s.at s.cur) o.sc) (.store b.1) 0)

/-- FENCE (R263). -/
def execFence (sc : Scope) (zext : Bool) (s : State) : Host.Outcome State Fault Refusal :=
  .next (s.issueMem (.fence sc zext) false none fun e =>
    s.beginRelease e (scopeMask (s.at s.cur) sc) (.fence sc) 0)

/-- The address check of L1INV's line form: R59 and R61 only (R264). -/
def State.lineCheck (s : State) (ea : Word) : Option Trap :=
  if bits ea 63 57 ≠ 0 then some (Cause.misaligned, ea)
  else if bits ea 56 56 = 0 then none
  else
    match bits ea 55 53 with
    | 0 => if bits ea 52 47 ≠ 0 ∨ bits ea 38 21 ≠ 0 then some (Cause.misaligned, ea) else none
    | 1 | 2 => if (s.ctx s.cur).prv then none else some (Cause.privileged, ea)
    | _ => some (Cause.misaligned, ea)

/-- The instruction cache loses every sector, or those of a line; fills in flight of them are not installed (R264). -/
def Core.invalidateIns (k : Core) (p : Nat → Bool) : Core :=
  { k with
    l1i := k.l1i.filter fun x => !p x.addr
    ifills := k.ifills.map fun f => if p f.sector then { f with drop := f.drop || f.sent } else f }

/-- The data cache loses a line, and the core's accesses in flight install none of it (R264). -/
def State.invalidateLine (s : State) (core line : Nat) : State :=
  let s := s.modCore core fun k => { k with l1d := k.l1d.filter fun x => x.addr / 256 != line }
  { s with accs := s.accs.map fun a => if a.core == core then { a with noFill := line :: a.noFill } else a }

/-- L1INV (R264). -/
def execL1inv (dat ins : Bool) (form : L1Form) (s : State) : Host.Outcome State Fault Refusal :=
  let core := s.at s.cur
  match form with
  | .whole _ =>
    .next (s.issueMem (.l1inv dat ins form) false none fun e =>
      let s := if dat then s.invalidateL1 core else s
      let s := if ins then s.modCore core fun k => k.invalidateIns fun _ => true else s
      s.retire e)
  | .line base off =>
    let ea := (s.ctx s.cur).getS base + off.value 1
    .next (s.issueMem (.l1inv dat ins form) false (s.lineCheck ea) fun e =>
      let near := bits ea 56 56 == 1
      let s := if dat && !near then s.invalidateLine core (ea.toNat / 256) else s
      let s := if ins && !near then s.modCore core fun k => k.invalidateIns fun a => a / 256 == ea.toNat / 256 else s
      s.retire e)

/-- VLD: 64 bytes to a vector register (R259). -/
def execVld (o : VMArgs) (s : State) : Host.Outcome State Fault Refusal :=
  let ea := (s.ctx s.cur).getS o.base + o.off.value 64
  .next (s.loadOp (.vld o) ⟨o.am, 64, true, [⟨ea, 0, 64⟩], o.x⟩ .vector [.v o.v] 64 8 0)

/-- VST: 64 bytes from a vector register (R259). -/
def execVst (o : VMArgs) (s : State) : Host.Outcome State Fault Refusal :=
  let ea := (s.ctx s.cur).getS o.base + o.off.value 64
  .next (s.storeOp (.vst o) ⟨o.am, 64, true, [⟨ea, 0, 64⟩], o.x⟩ (bytesOfNat 64 ((s.ctx s.cur).getV o.v).toNat) 0)

/-- The lanes of a strided access, ascending (R260). -/
def State.strided (s : State) (o : StrideArgs) : List Piece :=
  let c := s.ctx s.cur
  let w := o.ty.width / 8
  (List.range (64 / w)).map fun i => ⟨c.getS o.a + word i * c.getS o.b, w * i, w⟩

/-- The cycles that the requests after the first add (R260). -/
def laterRequests (cs : List (Piece × Place)) : Nat :=
  (cs.foldl (fun ps x => let t := chunkPart x.1 x.2; addChunk ps t.1 x.1.addr t.2) []).length - 1

/-- VLDS: one value per lane at a stride (R260). -/
def execVlds (o : StrideArgs) (s : State) : Host.Outcome State Fault Refusal :=
  let f : MemForm := ⟨o.am, o.ty.width / 8, false, s.strided o, o.x⟩
  let cs := okOf (s.tryPieces f.am f.align 1 false f.pieces)
  .next (s.loadOp (.vlds o) f .vector [.v o.v] 64 8 (laterRequests cs))

/-- VSTS: lanes to memory at a stride, ascending (R260). -/
def execVsts (o : StrideArgs) (s : State) : Host.Outcome State Fault Refusal :=
  let f : MemForm := ⟨o.am, o.ty.width / 8, false, s.strided o, o.x⟩
  let cs := okOf (s.tryPieces f.am f.align 2 false f.pieces)
  .next (s.storeOp (.vsts o) f (bytesOfNat 64 ((s.ctx s.cur).getV o.v).toNat) (laterRequests cs))

/-- The four 64-byte parts of a quad access (R392). -/
def quadPieces (ea : Word) : List Piece := (List.range 4).map fun i => ⟨ea + word (64 * i), 64 * i, 64⟩

/-- GLD: 256 bytes to a quad (R392). -/
def execGld (o : GMArgs) (s : State) : Host.Outcome State Fault Refusal :=
  let ea := (s.ctx s.cur).getS o.base + o.off.value 256
  .next (s.loadOp (.gld o) ⟨o.am, 64, false, quadPieces ea, o.x⟩ .vector o.q.vecs 256 32 3)

/-- The 256 bytes of a quad (R392). -/
def Ctx.quadBytes (c : Ctx) (q : QReg) : List Byte :=
  (List.range 4).flatMap fun i => bytesOfNat 64 (c.getV (Fin.ofNat 16 (4 * q.val + i))).toNat

/-- GST: a quad to 256 bytes (R392). -/
def execGst (o : GMArgs) (s : State) : Host.Outcome State Fault Refusal :=
  let ea := (s.ctx s.cur).getS o.base + o.off.value 256
  .next (s.storeOp (.gst o) ⟨o.am, 64, false, quadPieces ea, o.x⟩ ((s.ctx s.cur).quadBytes o.q) 3)

end Sys2Proof.Machine
end

