-- ==== Sys2Proof/Machine/Objects.lean ====
section
/-!
DEFINITION. The object instructions and the untyped atomics at their issue (spec/04_objects.md R94 to R97, R112 to R114, R124):
the checks made there, the release, and the request that the home answers. What the home does stands in Machine/Home.lean.
-/
namespace Sys2Proof.Machine

/-- Checks 1 and 2 of R114. -/
def State.objCheck (s : State) (a : Word) (align : Nat) (need : Rights) : Option Trap :=
  let c := s.ctx s.cur
  if bits a 63 56 ≠ 0 ∨ a.toNat % align ≠ 0 then some (Cause.misaligned, a)
  else if !c.prv && !Rights.cover (s.plbRights (s.at s.cur) c.domain a) need then some (Cause.protection, a)
  else none

/-- The bundle in issue sends its request and parks (R94); the leader of a pair holds it at the comparator (R196). -/
def State.askObject (s : State) (e : Effect) (r : ObjReq) (d : SReg) : State :=
  let s := s.fresh.2
  if s.leads then s.holdAction e (.object r) 0 d
  else
    let s := s.modCtx s.cur fun c => c.touched (s.at s.cur) r.addr
    ((s.sendRequest r).retireParked e (.object r.id false)).modCtx s.cur fun c => { c with dest := d, askAddr := r.addr }

/-- An object instruction (R94 to R96): a release-type request leaves once its release is complete. -/
def State.issueObject (s : State) (i : Instr) (o : OArgs) : Host.Outcome State Fault Refusal :=
  let c := s.ctx s.cur
  let a := c.getS o.a
  let core := s.at s.cur
  let sc := (homeScope core a).max (o.ovr.getD .core)
  let op := objectOp i
  .next (s.issueMem i false (s.objCheck a 64 8) fun e =>
    let r := s.ctxReq s.cur op a (c.getS o.b) 0 o.ret o.nw o.cmb false sc
    if releaseOp op then s.fresh.2.beginRelease e (scopeMask core sc) (.object r) o.d else s.askObject e r o.d)

/-- An untyped atomic (R124, R125). -/
def State.issueAtomic (s : State) (i : Instr) (o : AArgs) : Host.Outcome State Fault Refusal :=
  let c := s.ctx s.cur
  let a := c.getS o.a
  .next (s.issueMem i false (s.objCheck a (if o.w32 then 4 else 8) 3) fun e =>
    s.askObject e (s.ctxReq s.cur (objectOp i) a (c.getS o.b) (c.getS o.d) true false false o.w32
      (homeScope (s.at s.cur) a)) o.d)

/-- OINIT: types a sector (R115). -/
def execOinit (o : OArgs) (s : State) : Host.Outcome State Fault Refusal := s.issueObject (.oinit o) o

/-- OFREE: frees an object (R116). -/
def execOfree (o : OArgs) (s : State) : Host.Outcome State Fault Refusal := s.issueObject (.ofree o) o

/-- OREAD: a word of a sector, or its tag (R117). -/
def execOread (o : OArgs) (s : State) : Host.Outcome State Fault Refusal := s.issueObject (.oread o) o

/-- CADD (R118). -/
def execCadd (o : OArgs) (s : State) : Host.Outcome State Fault Refusal := s.issueObject (.cadd o) o

/-- CWAIT (R118). -/
def execCwait (o : OArgs) (s : State) : Host.Outcome State Fault Refusal := s.issueObject (.cwait o) o

/-- CSET (R118). -/
def execCset (o : OArgs) (s : State) : Host.Outcome State Fault Refusal := s.issueObject (.cset o) o

/-- BARR (R119). -/
def execBarr (o : OArgs) (s : State) : Host.Outcome State Fault Refusal := s.issueObject (.barr o) o

/-- BWAIT (R119). -/
def execBwait (o : OArgs) (s : State) : Host.Outcome State Fault Refusal := s.issueObject (.bwait o) o

/-- BARW (R119). -/
def execBarw (o : OArgs) (s : State) : Host.Outcome State Fault Refusal := s.issueObject (.barw o) o

/-- LTAKE (R120). -/
def execLtake (o : OArgs) (s : State) : Host.Outcome State Fault Refusal := s.issueObject (.ltake o) o

/-- LGIVE (R120). -/
def execLgive (o : OArgs) (s : State) : Host.Outcome State Fault Refusal := s.issueObject (.lgive o) o

/-- QPUT (R121). -/
def execQput (o : OArgs) (s : State) : Host.Outcome State Fault Refusal := s.issueObject (.qput o) o

/-- QGET (R121). -/
def execQget (o : OArgs) (s : State) : Host.Outcome State Fault Refusal := s.issueObject (.qget o) o

/-- KWAIT (R122). -/
def execKwait (o : OArgs) (s : State) : Host.Outcome State Fault Refusal := s.issueObject (.kwait o) o

/-- KSIG (R122). -/
def execKsig (o : OArgs) (s : State) : Host.Outcome State Fault Refusal := s.issueObject (.ksig o) o

/-- KALL (R122). -/
def execKall (o : OArgs) (s : State) : Host.Outcome State Fault Refusal := s.issueObject (.kall o) o

/-- FEGET (R123). -/
def execFeget (o : OArgs) (s : State) : Host.Outcome State Fault Refusal := s.issueObject (.feget o) o

/-- FEPUT (R123). -/
def execFeput (o : OArgs) (s : State) : Host.Outcome State Fault Refusal := s.issueObject (.feput o) o

/-- FEPEEK (R123). -/
def execFepeek (o : OArgs) (s : State) : Host.Outcome State Fault Refusal := s.issueObject (.fepeek o) o

/-- AADD (R125). -/
def execAadd (o : AArgs) (s : State) : Host.Outcome State Fault Refusal := s.issueAtomic (.aadd o) o

/-- ASWAP (R125). -/
def execAswap (o : AArgs) (s : State) : Host.Outcome State Fault Refusal := s.issueAtomic (.aswap o) o

/-- ACAS: s_d is the expected value (R125). -/
def execAcas (o : AArgs) (s : State) : Host.Outcome State Fault Refusal := s.issueAtomic (.acas o) o

/-- AMAX (R125). -/
def execAmax (o : AArgs) (s : State) : Host.Outcome State Fault Refusal := s.issueAtomic (.amax o) o

/-- AMIN (R125). -/
def execAmin (o : AArgs) (s : State) : Host.Outcome State Fault Refusal := s.issueAtomic (.amin o) o

/-- AAND (R125). -/
def execAand (o : AArgs) (s : State) : Host.Outcome State Fault Refusal := s.issueAtomic (.aand o) o

/-- AOR (R125). -/
def execAor (o : AArgs) (s : State) : Host.Outcome State Fault Refusal := s.issueAtomic (.aor o) o

/-- AXOR (R125). -/
def execAxor (o : AArgs) (s : State) : Host.Outcome State Fault Refusal := s.issueAtomic (.axor o) o

end Sys2Proof.Machine
end

