-- ==== Sys2Proof/Machine/Banks.lean ====
section
/-!
DEFINITION. Bank commands: the checks and the issue (spec/12_copy_and_bank_units.md R284 to R290), and what the bank arithmetic
unit computes on one row.
-/
namespace Sys2Proof.Machine

/-! What the unit computes. -/

/-- The lanes of a row: width and count (R284). -/
def rowLanes (bf : Bool) (row : List Byte) : List Nat :=
  let n := natOfBytes row
  let w := if bf then 16 else 32
  (List.range (256 / w)).map fun i => n / 2 ^ (w * i) % 2 ^ w

/-- Lanes packed to a row of 32 bytes. -/
def lanesRow (bf : Bool) (ls : List Nat) : List Byte := bytesOfNat 32 (packLanes (if bf then 16 else 32) ls)

/-- The row type's format. -/
def rowFmt (bf : Bool) : Fmt := if bf then bf16 else fp32

/-- Two rows combined lane by lane. -/
def zipRows (bf : Bool) (f : Nat → Nat → Nat) (d r : List Byte) : List Byte :=
  lanesRow bf ((rowLanes bf d).zipWith f (rowLanes bf r))

/-- BKSMX on a pair m, l and its inputs (R288). -/
def softmaxPair (m l : Nat) (xs : List Nat) : Nat × Nat :=
  let mx := xs.foldl (fun a x => fp32.minmax true a x) m
  let nan := fun x => match ofF32 x with | .nan => true | _ => false
  if nan m || nan l || xs.any nan then (0x7FC00000, 0x7FC00000)
  else if mx = 0xFF800000 then (m, l)
  else
    let ex := fun x => ofF32 (toF32 (ofF32 (toF32 ((ofF32 x).add (ofF32 mx).negate))).exp2)
    (mx, xs.foldl (fun acc x => toF32 ((ofF32 acc).add (ex x))) (toF32 ((ofF32 l).mul (ex m))))

/-- BKCVT of a row of 8 FP32 lanes (R287). -/
def cvtRow (k : Nat) (rm : Rnd) (sat : Bool) (row : List Byte) : List Byte :=
  let f := [bf16, fp16, e4m3, e5m2].getD k bf16
  bytesOfNat 32 (packLanes f.width ((rowLanes false row).map fun x => f.encode rm sat (ofF32 x)))

/-- The destination row after the unit's work on row i (R286): d and r are the destination and source rows as they stand. -/
def BankCmd.rowOf (b : BankCmd) (d r : List Byte) : List Byte :=
  let f := rowFmt b.bf16
  let c := ofF32 b.c.toNat
  match b.op with
  | 0x48 => zipRows b.bf16 (fun x y => f.lane ((f.decode x).add (f.decode y))) d r
  | 0x49 => zipRows b.bf16 (f.minmax true) d r
  | 0x4A => lanesRow b.bf16 ((rowLanes b.bf16 d).map fun x => f.lane ((f.decode x).mul c))
  | 0x4B => zipRows b.bf16 (fun x y => f.lane ((f.decode x).add ((f.decode y).mul c))) d r
  | 0x4D => cvtRow b.sub b.rnd b.sat r
  | 0x4E => lanesRow b.bf16 ((rowLanes b.bf16 d).map fun _ => if b.bf16 then b.c.toNat % 65536 else b.c.toNat)
  | 0x4F =>
    if b.sub = 0 then zipRows b.bf16 (fun x y => f.lane ((f.decode x).add (f.decode y))) d r
    else zipRows b.bf16 (f.minmax true) d r
  | _ => d

/-- Row 0 of a BKSMX after its last input (R288): bytes 8 to 31 stay. -/
def BankCmd.softmaxRow (b : BankCmd) (row : List Byte) : List Byte :=
  let p := softmaxPair (natOfBytes (row.take 4)) (natOfBytes ((row.drop 4).take 4)) b.xs.reverse
  bytesOfNat 4 p.1 ++ bytesOfNat 4 p.2 ++ row.drop 8

/-- The inputs of a BKSMX row, BF16 lanes widened (R288). -/
def BankCmd.inputs (b : BankCmd) (row : List Byte) : List Nat :=
  (rowLanes b.bf16 row).map fun x => if b.bf16 then toF32 (Sys2Proof.Machine.bf16.decode x) else x

/-! The issue. -/

/-- The opcode of a bank command (R286). -/
def bankOp : Instr → Nat
  | .bkadd _ => 0x48
  | .bkmax _ => 0x49
  | .bkscl _ => 0x4A
  | .bkfma _ => 0x4B
  | .bksmx _ => 0x4C
  | .bkcvt _ => 0x4D
  | .bkfill _ => 0x4E
  | .bkred _ => 0x4F
  | _ => 0

/-- The command has a source run (R286 to R288). -/
def bankHasSource (op : Nat) : Bool := [0x48, 0x49, 0x4B, 0x4D, 0x4F].contains op

/-- Step 1 of R285 for one run of n rows. -/
def State.runMisaligned (s : State) (core : Nat) (am : AddrMode) (a : Word) (n : Nat) : Bool :=
  bits a 63 53 != 8 || bits a 52 47 != 0 || bits a 38 21 != 0 || (am == .own && !s.ownCoreOk core a)
    || a.toNat % 32 != 0 || decide (2 ^ 18 ≤ (slabByte am core (bits a 20 0)).2 + 256 * (n - 1))

/-- The core within its cluster, the bank, and the cluster that a run names: an index that names none is the same with LIT 0 and 1
(R62 to R64). -/
def State.runPlace (s : State) (core : Nat) (am : AddrMode) (a : Word) : Option Nat × Nat × Nat × Nat :=
  let p := slabByte am core (bits a 20 0)
  let cl := s.slabCluster core a
  (cl, if cl.isSome then 0 else bits a 45 39, p.1, p.2 / 32 % 8)

/-- The checks of a bank command (R285). -/
def State.bankCheck (s : State) (am : AddrMode) (a b : Word) (src : Bool) (nd ns : Nat) : Except Trap (Nat × Nat) :=
  let core := s.at s.cur
  if s.runMisaligned core am a nd then .error (Cause.misaligned, a)
  else if src && s.runMisaligned core am b ns then .error (Cause.misaligned, b)
  else if src && s.runPlace core am a != s.runPlace core am b then .error (Cause.misaligned, b)
  else
    match s.slabCluster core a with
    | none => .error (Cause.protection, a)
    | some cl =>
      if src && (s.slabCluster core b).isNone then .error (Cause.protection, b)
      else
        let p := slabByte am core (bits a 20 0)
        if !(s.core (8 * cl + p.1)).present then .error (Cause.absentCore, a) else .ok (8 * cl + p.1, p.2)

/-- The rows of a bank command: 0 means 1,024 (R285). -/
def bankRows (x : Word) : Nat := if bits x 9 0 = 0 then 1024 else bits x 9 0

/-- A bank command issues as a memory instruction of the slot (R285, R289). -/
def State.issueBank (s : State) (i : Instr) (o : BArgs) : Host.Outcome State Fault Refusal :=
  let c := s.ctx s.cur
  let op := bankOp i
  let x := c.getS o.d
  let a := c.getS o.a
  let b := c.getS o.b
  let n := bankRows x
  let src := bankHasSource op
  let ck := s.bankCheck o.am a b src (if op = 0x4F then 1 else n) n
  let own := match ck with | .error t => some t | .ok _ => none
  .next (s.issueMem i o.x own fun e =>
    match ck with
    | .error _ => s
    | .ok (k, byte) =>
      let sb := (slabByte o.am (s.at s.cur) (bits b 20 0)).2
      let cmd : BankCmd := ⟨s.nextId, op, o.bf16, o.sub.toNat, byte, sb, n, (x >>> 32).setWidth 32, 0,
        rndOfCode (c.tfmt.toNat / 2 ^ 12 % 4), c.tfmt.getLsbD 14, []⟩
      (s.startAccess s.cur c.pc ⟨.bankCmd, o.x, [], 1, a, [], false, false, 0, some cmd⟩
        [(⟨a, 0, 1⟩, .slab k byte)]).retire e)

/-- BKADD: D[i] + S[i] (R286). -/
def execBkadd (o : BArgs) (s : State) : Host.Outcome State Fault Refusal := s.issueBank (.bkadd o) o

/-- BKMAX: the maximum of D[i] and S[i] (R286). -/
def execBkmax (o : BArgs) (s : State) : Host.Outcome State Fault Refusal := s.issueBank (.bkmax o) o

/-- BKSCL: D[i] · c (R286). -/
def execBkscl (o : BArgs) (s : State) : Host.Outcome State Fault Refusal := s.issueBank (.bkscl o) o

/-- BKFMA: D[i] + S[i] · c (R286). -/
def execBkfma (o : BArgs) (s : State) : Host.Outcome State Fault Refusal := s.issueBank (.bkfma o) o

/-- BKSMX: a softmax pair (R288) (R286). -/
def execBksmx (o : BArgs) (s : State) : Host.Outcome State Fault Refusal := s.issueBank (.bksmx o) o

/-- BKCVT: conversion (R287) (R286). -/
def execBkcvt (o : BArgs) (s : State) : Host.Outcome State Fault Refusal := s.issueBank (.bkcvt o) o

/-- BKFILL: every lane of D[i] is c (R286). -/
def execBkfill (o : BArgs) (s : State) : Host.Outcome State Fault Refusal := s.issueBank (.bkfill o) o

/-- BKRED: a sum or maximum over rows (R286). -/
def execBkred (o : BArgs) (s : State) : Host.Outcome State Fault Refusal := s.issueBank (.bkred o) o

end Sys2Proof.Machine
end

