-- ==== Sys2Proof/Machine/Engines.lean ====
section
/-!
DEFINITION. MXC, CPC and ESTAT (spec/14_matrix_unit.md R320, spec/12_copy_and_bank_units.md R282, R283).
-/
namespace Sys2Proof.Machine

/-- MXC pushes a matrix command (R320). -/
def execMxc (d : SReg) (a : EReg) (s : State) : Host.Outcome State Fault Refusal :=
  let c := s.ctx s.cur
  let ws := c.block a
  let own := (matrixFail ws c.tfmt c.tscale c.twin.isSome).map fun n => (Cause.mxCmd, word n)
  .next (s.issueC (.mxc d a) none own fun e =>
    let cmd := s.matrixCmd s.cur ws
    s.beginRelease e (s.matrixMask s.cur cmd) (.matrix cmd d) d)

/-- CPC pushes a copy command (R282). -/
def execCpc (d : SReg) (a : EReg) (s : State) : Host.Outcome State Fault Refusal :=
  let c := s.ctx s.cur
  let ws := c.block a
  let own := (copyFail ws c.tfmt).map fun n => (Cause.cpCmd, word n)
  .next (s.issueC (.cpc d a) none own fun e =>
    s.beginRelease e (s.copyMask s.cur ws) (.copy (s.copyCmd s.cur ws) d) d)

/-- The commands of a context on its core's matrix unit: queued and executing (R283). -/
def State.mxCount (s : State) (g : Nat) : Nat :=
  let mx := (s.core (s.at g)).mx
  let mine := fun (m : MxCmd) => m.gid == g && m.gen == (s.ctx g).gen && !m.failed
  (mx.queue.filter mine).length + (mx.run.elim 0 fun r => if mine r.cmd then 1 else 0)

/-- The commands of a context on its cluster's copy engine (R283). -/
def State.cpCount (s : State) (g : Nat) : Nat :=
  ((s.cluster (clusterOf (s.at g))).cpQueue.filter fun m => m.gid == g && m.gen == (s.ctx g).gen && !m.failed).length

/-- The word ESTAT reads (R283). -/
def State.estat (s : State) (g : Nat) (cp : Bool) : Word :=
  let c := s.ctx g
  let n := if cp then s.cpCount g else s.mxCount g
  let last := if cp then c.lastCp else c.lastMx
  word (n % 65536 + 65536 * c.eerr.toNat + (match last with | none => 0 | some q => 2 ^ 17 + 2 ^ 32 * q.toNat))

/-- ESTAT's clearing: the sticky flag, and a recorded ENGINE_ERROR not yet raised (R283). -/
def Ctx.clearEngine (c : Ctx) : Ctx :=
  { c with eerr := false }.withRecords (c.records.filter fun r => r.cause.toNat != Cause.engineError)

/-- ESTAT reads an engine's status, and may clear the context's engine-error flag (R283). -/
def execEstat (d : SReg) (cp clr : Bool) (s : State) : Host.Outcome State Fault Refusal :=
  .next (s.issueC (.estat d cp clr) none none fun e =>
    let v := s.estat s.cur cp
    (if clr then s.modCtx s.cur Ctx.clearEngine else s).retireRes [setS d v] e)

end Sys2Proof.Machine
end

