-- ==== Sys2Proof/Machine/Control.lean ====
section
/-!
DEFINITION. NOPC, the branches, LOOP and the jumps (spec/08_scalar_instructions.md R210 to R215). A taken transfer is checked
under R184 before anything of its bundle takes effect.
-/
namespace Sys2Proof.Machine

/-- A transfer of the bundle in issue, with its effects. -/
def State.goTo (s : State) (target : Word) (byReg : Bool) (e : Effect) : State :=
  s.transfer s.cur ⟨target, e, byReg, false, s.capture s.cur⟩ s.bun.marker

/-- PC + sx(off) · 4, relative to the word that holds the branch (R20). -/
def State.relTarget (s : State) (off : Word) : Word := (s.ctx s.cur).pc + off * 4

/-- A conditional branch (R211): the target is checked only when the branch is taken. -/
def branch (s : State) (i : Instr) (taken : Bool) (off : Imm11) : Host.Outcome State Fault Refusal :=
  .next (s.issueC i none none fun e => if taken then s.goTo (s.relTarget off.value) false e else s.retire e)

/-- NOPC changes no state; with the marker it waits (R215). -/
def execNopc (s : State) : Host.Outcome State Fault Refusal :=
  .next (s.issueC .nopc none none fun e => s.retire e)

/-- BEQ: s_a = s_b (R211). -/
def execBeq (a b : SReg) (off : Imm11) (s : State) : Host.Outcome State Fault Refusal :=
  branch s (.beq a b off) ((s.ctx s.cur).getS a == (s.ctx s.cur).getS b) off

/-- BNE: s_a ≠ s_b (R211). -/
def execBne (a b : SReg) (off : Imm11) (s : State) : Host.Outcome State Fault Refusal :=
  branch s (.bne a b off) ((s.ctx s.cur).getS a != (s.ctx s.cur).getS b) off

/-- BLT: i(s_a) < i(s_b) (R211). -/
def execBlt (a b : SReg) (off : Imm11) (s : State) : Host.Outcome State Fault Refusal :=
  branch s (.blt a b off) (((s.ctx s.cur).getS a).slt ((s.ctx s.cur).getS b)) off

/-- BGE: i(s_a) ≥ i(s_b) (R211). -/
def execBge (a b : SReg) (off : Imm11) (s : State) : Host.Outcome State Fault Refusal :=
  branch s (.bge a b off) (((s.ctx s.cur).getS b).sle ((s.ctx s.cur).getS a)) off

/-- BLTU: u(s_a) < u(s_b) (R211). -/
def execBltu (a b : SReg) (off : Imm11) (s : State) : Host.Outcome State Fault Refusal :=
  branch s (.bltu a b off) (((s.ctx s.cur).getS a).ult ((s.ctx s.cur).getS b)) off

/-- BGEU: u(s_a) ≥ u(s_b) (R211). -/
def execBgeu (a b : SReg) (off : Imm11) (s : State) : Host.Outcome State Fault Refusal :=
  branch s (.bgeu a b off) (((s.ctx s.cur).getS b).ule ((s.ctx s.cur).getS a)) off

/-- LOOP: s_a counts down, and the branch is taken while the count differs from s_b (R212). -/
def execLoop (a b : SReg) (off : Imm11) (s : State) : Host.Outcome State Fault Refusal :=
  .next (s.issueC (.loop a b off) none none fun e =>
    let n := (s.ctx s.cur).getS a - 1
    let e := Effect.join (resS a n) e
    if n != (s.ctx s.cur).getS b then s.goTo (s.relTarget off.value) false e else s.retire e)

/-- JMP (R213). -/
def execJmp (off : BitVec 21) (s : State) : Host.Outcome State Fault Refusal :=
  .next (s.issueC (.jmp off) none none fun e => s.goTo (s.relTarget (off.signExtend 64)) false e)

/-- CALL: s1 receives the address of the bundle after this one (R213). -/
def execCall (off : BitVec 21) (s : State) : Host.Outcome State Fault Refusal :=
  .next (s.issueC (.call off) none none fun e =>
    s.goTo (s.relTarget (off.signExtend 64)) false (Effect.join (resS 1 s.nextPc) e))

/-- JR: s_a + imm · 4 (R214). -/
def execJr (a : SReg) (imm : Imm11) (s : State) : Host.Outcome State Fault Refusal :=
  .next (s.issueC (.jr a imm) none none fun e => s.goTo ((s.ctx s.cur).getS a + imm.value * 4) true e)

/-- CALLR: s_a is read before s1 is written (R214). -/
def execCallr (a : SReg) (imm : Imm11) (s : State) : Host.Outcome State Fault Refusal :=
  .next (s.issueC (.callr a imm) none none fun e =>
    s.goTo ((s.ctx s.cur).getS a + imm.value * 4) true (Effect.join (resS 1 s.nextPc) e))

end Sys2Proof.Machine
end

