-- ==== Sys2Proof/Machine/System.lean ====
section
/-!
DEFINITION. Control registers and the system instructions: MFC, MTC (spec/08_scalar_instructions.md R216 to R219,
spec/18_traps_and_preemption.md R368 to R371), TRAP, RFT, KILL, HALT, PLBW (R372, R373, R384, R386, R387).
-/
namespace Sys2Proof.Machine

/-! Control registers. -/

/-- Who may read or write a control register (R218, R368). -/
structure CtlAccess where
  userRead  : Bool
  userWrite : Bool
  supWrite  : Bool
  deriving DecidableEq, Repr

/-- The access of a control register by its number; none for a number that names no register (R218, R368). TRAPPC is
writable by the user while UH is 1. -/
def ctlAccess (num : Nat) (uh : Bool) : Option CtlAccess :=
  if [0x000, 0x001, 0x002, 0x010, 0x011, 0x020, 0x021, 0x040, 0x041, 0x050, 0x060].contains num then
    some ⟨true, false, false⟩
  else if [0x003, 0x004, 0x022, 0x023, 0x031, 0x032, 0x035, 0x03A].contains num then some ⟨true, false, true⟩
  else if [0x012, 0x033, 0x036, 0x037].contains num then some ⟨true, true, true⟩
  else if num = 0x030 then some ⟨true, uh, true⟩
  else if [0x034, 0x038, 0x039].contains num then some ⟨false, false, true⟩
  else if 0x100 ≤ num ∧ num ≤ 0x13F then some ⟨false, false, false⟩
  else none

/-- TSTATE (R370). -/
def Ctx.tstate (c : Ctx) : Word :=
  word (c.prv.toNat + 2 * c.uh.toNat + 4 * c.sh.toNat + 8 * c.pprv.toNat + 16 * c.puh.toNat + 32 * c.wake.toNat
    + 64 * c.eerr.toNat + 128 * c.pre.toNat + 256 * c.rcause.toNat + 65536 * c.gen.toNat)

/-- MXSEQ: the next sequence number and the commands that hold a queue entry (R308). -/
def MatrixUnit.mxseq (m : MatrixUnit) : Word :=
  word (m.seq.toNat + 2 ^ 32 * (m.queue.length + (if m.run.isSome then 1 else 0)))

/-- The partition-relative number of a core (R7). -/
def State.relCore (s : State) (core : Nat) : Nat := (s.coresOf core).idxOf core

/-- CAPGEN of the partition of a core (R371). -/
def State.capGenOf (s : State) (core : Nat) : Nat :=
  match s.partOfCore core with
  | none => 0
  | some v => (s.part v).capGen.toNat

/-- The value a control register reads as, for a context (R218, R368 to R371). -/
def State.readCtl (s : State) (g num : Nat) : Word :=
  let c := s.ctx g
  let core := s.at g
  match num with
  | 0x000 => word (c.slot.getD 0)
  | 0x001 => word (s.relCore core)
  | 0x002 => word g
  | 0x003 => c.domain.setWidth 64
  | 0x004 => c.prio.setWidth 64
  | 0x010 => c.tfmt.setWidth 64
  | 0x011 => c.tscale.setWidth 64
  | 0x012 => c.gtol.setWidth 64
  | 0x020 => c.touch
  | 0x021 => 0
  | 0x022 => word (c.wcount.toNat + 2 ^ 32 * c.wlimit.toNat)
  | 0x023 => c.tquant.setWidth 64
  | 0x030 => c.trappc.setWidth 64
  | 0x031 => c.tcause.setWidth 64
  | 0x032 => c.tval
  | 0x033 => c.tvecU.setWidth 64
  | 0x034 => c.tvecS.setWidth 64
  | 0x035 => c.tdeleg.setWidth 64
  | 0x036 => c.tsave[0]
  | 0x037 => c.tsave[1]
  | 0x038 => c.tsave[2]
  | 0x039 => c.tsave[3]
  | 0x03A => c.tstate
  | 0x040 => s.time (dieOfCore core)
  | 0x041 =>
    match c.twin with
    | none => if c.twinned then 1 else 0
    | some t => word (1 + 2 * (lvqValues t.queue % 128) + 256 * c.rbk.toNat)
  | 0x050 => (s.core core).mx.mxseq
  | 0x060 => word (c.moves.toNat + 2 ^ 32 * s.capGenOf core)
  | _ => (s.core core).plbEntry (num - 0x100)

/-- A vector base: bits [56:11] (R368). -/
def vectorBase (x : Word) : BitVec 57 := (x.setWidth 57 >>> 11) <<< 11

/-- A control register written; reserved bits are ignored (R5, R218, R368 to R370). DEDUCED, notes/assumptions/18.md. -/
def Ctx.writeCtl (c : Ctx) (num : Nat) (x : Word) : Ctx :=
  match num with
  | 0x003 => { c with domain := x.setWidth 16 }
  | 0x004 => { c with prio := x.setWidth 2 }
  | 0x012 => { c with gtol := x.setWidth 32 }
  | 0x022 => { c with wcount := x.setWidth 32, wlimit := (x >>> 32).setWidth 32 }
  | 0x023 => { c with tquant := if (x.setWidth 16 : BitVec 16).toNat < 16 then 16 else x.setWidth 16 }
  | 0x030 => { c with trappc := x.setWidth 57 }
  | 0x031 => { c with tcause := x.setWidth 11 }
  | 0x032 => { c with tval := x }
  | 0x033 => { c with tvecU := vectorBase x }
  | 0x034 => { c with tvecS := vectorBase x }
  | 0x035 => { c with tdeleg := x.setWidth 32 &&& delegable }
  | 0x036 => { c with tsave := c.tsave.set 0 x }
  | 0x037 => { c with tsave := c.tsave.set 1 x }
  | 0x038 => { c with tsave := c.tsave.set 2 x }
  | 0x039 => { c with tsave := c.tsave.set 3 x }
  | 0x03A => { c with pre := x.getLsbD 7 }
  | _ => c

/-- Checks 1 to 3 of MFC and MTC (R217). DEDUCED, notes/assumptions/23.md. -/
def ctlCheck (c : Ctx) (num : Nat) (write : Bool) : Option Trap :=
  match ctlAccess num c.uh with
  | none => some (Cause.illegalOp, word num)
  | some a =>
    if write && !a.supWrite && !a.userWrite then some (Cause.illegalOp, word num)
    else if !c.prv && !(if write then a.userWrite else a.userRead) then some (Cause.privileged, word num)
    else none

/-- A control register's number, the value of a coded field: one that the instruction may name in no mode raises ILLEGAL_OP, before what
R18 lists after reserved values (R17, R217). DEDUCED, notes/assumptions/23.md. -/
def numberTrap : Instr → Option Trap
  | .mfc _ n => if (ctlAccess n.toNat true).isNone then some (Cause.illegalOp, n.setWidth 64) else none
  | .mtc n _ =>
    if (ctlAccess n.toNat true).any fun a => a.supWrite || a.userWrite then none else some (Cause.illegalOp, n.setWidth 64)
  | _ => none

/-- The cause of the first word of a bundle that is one of class and sequence (R9 to R11), but has a later fault (R18). -/
def headTrap (aligned8 : Bool) : List Code → Option Trap
  | w :: rest =>
    let first := (decodeInstr w none).bind numberTrap
    if Code.cls w = 1 then first
    else if Code.cls w = 0 ∧ aligned8 then
      match rest with
      | t :: _ => if Code.cls t = 2 ∧ Code.side t ∧ !Code.mark t then first else none
      | [] => none
    else none
  | [] => none

/-- MFC: a control register to s_d (R216, R217). The count that MFC WDOG reads is the one before the MFC issued, which ends the wait it
counts (R375, R376). DESIGN CHOICE, notes/assumptions/69.md. -/
def execMfc (d : SReg) (num : BitVec 12) (s : State) : Host.Outcome State Fault Refusal :=
  .next (s.issueC (.mfc d num) (ctlCheck (s.ctx s.cur) num.toNat false) none fun e =>
    s.retireRes [setS d (s.readCtl s.cur num.toNat)] e)

/-- COUNT as MTC WDOG leaves it: the write stands, although the MTC itself returned COUNT to 0 by issuing (R375, R376).
DEDUCED, notes/assumptions/52.md. -/
def Ctx.keepCount (num : Nat) (x : Word) (c : Ctx) : Ctx := if num = 0x022 then { c with wcount := x.setWidth 32 } else c

/-- A changed priority, quantum or pre-emptible flag governs pre-emption from the next bundle on: the core looks at its slots again, if a
context is Ready (R163, R216, R218, R370). -/
def State.lookQuantum (s : State) (num : Nat) : State :=
  if num = 0x004 ∨ num = 0x023 ∨ num = 0x03A then s.lookReady (s.at s.cur) else s

/-- MTC: s_a to a control register, from the next bundle on (R216, R217). -/
def execMtc (num : BitVec 12) (a : SReg) (s : State) : Host.Outcome State Fault Refusal :=
  let c := s.ctx s.cur
  let x := c.getS a
  let own := if num = 0x003 ∧ !s.domainOk (s.at s.cur) (bits x 15 0) then some (Cause.domain, x) else none
  .next (s.issueC (.mtc num a) (ctlCheck c num.toNat true) own fun e =>
    ((s.modCtx s.cur fun c => c.writeCtl num.toNat x).lookQuantum num.toNat |>.retire e).modCtx s.cur (Ctx.keepCount num.toNat x))

/-! TRAP and RFT. -/

/-- TRAP raises SOFT_TRAP with its code; the tail has no effect (R372). -/
def execTrap (imm : Imm16) (s : State) : Host.Outcome State Fault Refusal :=
  .next (s.issueC (.trap imm) none (some (Cause.softTrap, imm.zvalue)) fun e => s.retire e)

/-- The class of the word at an address for RFT's count: none for a word that cannot be read, whose count ends there and raises no
cause; a sector that is not at hand is named (R373). DESIGN CHOICE, notes/assumptions/24.md. -/
def State.countClass (s : State) (g : Nat) (a : Word) : Except Nat (Option (BitVec 2)) :=
  let c := s.ctx g
  let sector := a.toNat / 64 * 64
  if c.nofetch.contains sector then .ok none
  else
    match cacheFind (c.ufetch ++ (s.core (s.at g)).l1i) a.toNat with
    | none => .error sector
    | some x => .ok (some (Code.cls (sectorWord x.data a.toNat)))

/-- How many of the words at hand a count may pass: each stands in a sector of the core. -/
def State.countLimit (s : State) (g : Nat) : Nat := 16 * ((s.ctx g).ufetch ++ (s.core (s.at g)).l1i).length

/-- The class-0b11 words that follow an address, counted after k others; a missing sector is named. -/
def State.extRun (s : State) (g : Nat) : Nat → Nat → Word → Except Nat Nat
  | 0, k, _ => .ok k
  | n + 1, k, a =>
    match s.countClass g a with
    | .error x => .error x
    | .ok cl => if cl = some 3 then s.extRun g n (k + 1) (a + 4) else .ok k

/-- skipwords (R373). DESIGN CHOICE, notes/assumptions/24.md. -/
def State.skipWords (s : State) (g : Nat) (t : Word) : Except Nat Nat :=
  let run := fun k => s.extRun g (s.countLimit g) k (t + word (4 * k))
  match s.countClass g t with
  | .error x => .error x
  | .ok cl =>
    if cl = some 0 then
      match s.countClass g (t + 4) with
      | .error x => .error x
      | .ok cl' => run (if cl' = some 2 then 2 else 1)
    else run 1

/-- The bundle in issue waits for an instruction sector it must read, and issues again (R182). -/
def State.holdFill (s : State) (a : Nat) : State :=
  ((s.modCtx s.cur fun c => { c with fills := [a], readyAt := s.cycle + 1 }).park s.cur .fetchFill).requestFill (s.at s.cur) a

/-- RFT: the return from a handler (R373). DESIGN CHOICE, notes/assumptions/19.md. -/
def execRft (skip : Bool) (s : State) : Host.Outcome State Fault Refusal :=
  let v := s.freeNat
  let s := v.2
  let c := s.ctx s.cur
  let own := if !c.uh && !c.sh then some (Cause.illegalOp, word v.1) else none
  .next (s.issueC (.rft skip) none own fun e =>
    let t := c.trappc.setWidth 64
    if skip then
      match s.skipWords s.cur t with
      | .error a => s.holdFill a
      | .ok n => s.transfer s.cur ⟨t + word (4 * n), e, true, true, s.capture s.cur⟩ s.bun.marker
    else s.transfer s.cur ⟨t, e, true, true, s.capture s.cur⟩ s.bun.marker)

/-! KILL, HALT, PLBW. -/

/-- The checks of KILL before any target (R384). -/
def State.killCheck (s : State) (dom : Bool) (x : Word) : Option Trap :=
  let c := s.ctx s.cur
  let core := s.at s.cur
  if dom then if !s.domainOk core (bits x 15 0) then some (Cause.domain, x) else none
  else
    let g := bits x 31 0
    if bits x 31 22 ≠ Config.moduleNumber ∨ !(s.coresOf core).contains (coreOf g) then some (Cause.protection, x)
    else if !c.prv && decide ((s.ctx g).st ≠ .free) && (s.ctx g).domain != c.domain then some (Cause.domain, x)
    else none

/-- KILL (R384); the leader of a pair holds it at the comparator (R196, R413). DEDUCED, notes/assumptions/53.md. -/
def execKill (d a : SReg) (dom nw : Bool) (s : State) : Host.Outcome State Fault Refusal :=
  let c := s.ctx s.cur
  let x := c.getS a
  let priv := if dom && !c.prv then some (Cause.privileged, x) else none
  let self := if killsSelf dom x s.cur && !s.leads then some (s.startKill s.cur Cause.killed 0 c.pc s.cur) else none
  .next (s.issueLate (.kill d a dom nw) priv (s.killCheck dom x) self fun e =>
    if s.leads then s.holdAction e (.kill dom x d nw) 0 d
    else
      let k := s.killAll s.cur dom x
      let s := k.state
      if nw || k.left.isEmpty then s.retireRes [setS d (word k.count)] e
      else (s.retireParked e (.kills k.left)).modCtx s.cur fun c => { c with dest := d, answer := some k.count })

/-- HALT: supervisor only; the context parks until RESUME (R386). The leader of a pair holds it at the comparator (R196, R413).
DESIGN CHOICE, notes/assumptions/19.md. -/
def execHalt (s : State) : Host.Outcome State Fault Refusal :=
  let v := s.freeNat
  let s := v.2
  let priv := if !(s.ctx s.cur).prv then some (Cause.privileged, word v.1) else none
  .next (s.issueC .halt priv none fun e => if s.leads then s.holdAction e .halt 0 0 else s.retireThenPark e (.halted false))

/-- The own causes of PLBW (R387); `v` stands for the TVAL the rule does not state. DESIGN CHOICE, notes/assumptions/19.md. -/
def State.plbwCheck (s : State) (x y v : Word) : Option Trap :=
  if 64 ≤ x.toNat then some (Cause.illegalOp, x)
  else if bits y 15 9 ≠ 0 ∨ bits y 63 63 ≠ 0 then some (Cause.illegalOp, y)
  else if bits y 0 0 = 1 ∧ !s.domainOk (s.at s.cur) (bits y 31 16) then some (Cause.domain, v)
  else none

/-- PLBW: an entry of the core's PLB, from the next cycle on; d receives the old one (R387). -/
def execPlbw (d a b : SReg) (s : State) : Host.Outcome State Fault Refusal :=
  let v := s.freeNat
  let s := v.2
  let c := s.ctx s.cur
  let x := c.getS a
  let y := c.getS b
  let core := s.at s.cur
  let priv := if !c.prv then some (Cause.privileged, word v.1) else none
  .next (s.issueC (.plbw d a b) priv (s.plbwCheck x y (word v.1)) fun e =>
    let old := (s.core core).plbEntry x.toNat
    (s.modCore core fun k => { k with plb := mapSet k.plb x.toNat y }).retireRes [setS d old] e)

end Sys2Proof.Machine
end

