-- ==== Sys2Proof/Machine/Contexts.lean ====
section
/-!
DEFINITION. Images, slots and the ready queue (spec/06_contexts_and_placement.md R158 to R164), and SPAWN, FORK, QUIT, YIELD and
WAITT (R171 to R177).
-/
namespace Sys2Proof.Machine

/-! Images and the saggar. -/

/-- Bytes of a die's saggar charged to a partition (R70, R129, R161, R339). -/
def State.saggarUsed (s : State) (die v : Nat) : Nat := (mapGet (s.die die).saggarUse v).getD 0

/-- The partition of a context: that of the shadow storage it stands in, else the one in service at its core (R380). -/
def State.partOfCtx (s : State) (g : Nat) : Option Nat :=
  match (s.cluster (clusterOf (s.at g))).shadow.find? fun x => x.ctxs.contains g with
  | some x => some x.vf
  | none => s.partOfCore (s.at g)

/-- Bytes charged to a partition on a die, or, with a negative number, given back. -/
def State.chargePart (s : State) (die v : Nat) (n : Int) : State :=
  s.modDie die fun d => { d with saggarUse := mapSet d.saggarUse v ((s.saggarUsed die v : Int) + n).toNat }

/-- Bytes charged to a context's partition. -/
def State.chargeSaggar (s : State) (g : Nat) (n : Int) : State := s.chargePart (dieOfCore (s.at g)) ((s.partOfCtx g).getD 0) n

/-- The partition of a context has room for n more bytes. -/
def State.saggarRoomFor (s : State) (g n : Nat) : Bool :=
  match s.partOfCtx g with
  | none => false
  | some v => decide (s.saggarUsed (dieOfCore (s.at g)) v + n ≤ (s.part v).sagQuota.toNat * 2 ^ 20)

/-- The partition of a core has room for n more bytes. -/
def State.saggarRoom (s : State) (core n : Nat) : Bool :=
  match s.partOfCore core with
  | none => false
  | some v => decide (s.saggarUsed (dieOfCore core) v + n ≤ (s.part v).sagQuota.toNat * 2 ^ 20)

/-! The saggar's lines (R70). -/

/-- The saggar's slots of a channel, 7,616 to 7,671 (R70). -/
def saggarSlots : Nat := 56

/-- The place of a byte of a die's saggar, by which its poison mark and its errors go (R409, R411). -/
def saggarPlace (die byte : Nat) : Nat := 2 ^ 63 + die * 2 ^ 31 + byte

/-- The channel in which a byte of a die's saggar lies, line s in channel s mod 160, and its line's number there, after the lines of the
frame area (R70). -/
def saggarLine (die byte : Nat) : Nat × Nat :=
  (die * Config.slices + byte / 256 % Config.slices, 7520 * Config.lineSlots + byte / 256 / Config.slices)

/-- A line slot of a leased channel is the one that moves now, to the reserve or back (R428). DEDUCED, notes/assumptions/43.md. -/
def State.slotMoving (s : State) (sl line : Nat) : Bool :=
  (s.slice sl).leased && (s.slice sl).moveNext == line
    && s.assay.leases.any fun l => l.key == 2000 + sl && (l.stage == 2 || l.stage == 4)

/-- The cycles that an access to n bytes of a die's saggar is held because a line of theirs moves (R428). -/
def State.saggarWait (s : State) (die byte n : Nat) : Nat :=
  ((List.range ((byte % 256 + n + 255) / 256)).map fun i =>
    let l := saggarLine die (byte + 256 * i)
    if s.slotMoving l.1 l.2 then
      ((s.agenda.filter fun d => decide (d.ev = .lineMove) && d.arg.who == l.1).map fun d => d.at_ - s.cycle).foldl Nat.max 0
    else 0).foldl Nat.max 0

/-- The time of an HBM read of n bytes of a die's saggar (R126, R158, R347). -/
def State.saggarRead (s : State) (die byte n : Nat) : Nat × State :=
  let t := s.freeRange 420 560
  (s.saggarWait die byte n + t.1, t.2)

/-- Poison stands in n bytes of a die's saggar (R411). -/
def State.saggarPoisoned (s : State) (die byte n : Nat) : Bool := s.poisoned (saggarPlace die byte) n

/-- n bytes of a die's saggar are written, whole sectors of which lose their poison marks (R411). -/
def State.saggarWrite (s : State) (die byte n : Nat) : State :=
  let p := saggarPlace die byte
  { s with poison := s.poison.filter fun m => decide (64 * m < p) || decide (p + n < 64 * m + 64) }

/-- The first byte of a partition's area on a die: behind the fixed regions and the areas of the partitions before it (R70). -/
def State.areaBase (s : State) (die v : Nat) : Nat :=
  let ps := s.parts.filter fun p => decide (p.1 < v) && p.2.enable && p.2.clusterList.any fun c => c / 64 == die
  2 ^ 20 * (204 + (ps.map fun p => p.2.sagQuota.toNat).sum)

/-- The byte of the saggar, on its core's die, at which the image of a context lies, or (m > 0) a message by its sequence number. Where in
its partition's area an item lies is open: a free value. DESIGN CHOICE, notes/assumptions/74.md. -/
def State.saggarByte (s : State) (g m : Nat) : Nat :=
  let v := (s.partOfCtx g).getD 0
  let size := if m = 0 then 2048 else 32
  s.areaBase (dieOfCore (s.at g)) v
    + size * (Config.saggarUnit (g + 2 ^ 32 * m) % Nat.max 1 (2 ^ 20 * (s.part v).sagQuota.toNat / size))

/-- The byte at which an entry of a slice's spill ring lies, by its arrival number: the rings of the slices, 65,536 entries of 16 bytes
each (R70, R100). -/
def spillByte (sl seq : Nat) : Nat := 2 ^ 20 * (sl % Config.slices) + 16 * (seq % 65536)

/-- The byte at which the save area of a cluster begins: 320 KiB for the local memory of a core and its accumulators (R70, R425). -/
def saveByte (cl : Nat) : Nat := 2 ^ 20 * 160 + 327680 * (cl % 64)

/-- The image of a context is read from the saggar: the time. -/
def State.readImage (s : State) (g : Nat) : Nat × State := s.saggarRead (dieOfCore (s.at g)) (s.saggarByte g 0) 2048

/-- The image of a context is written to the saggar, and charged (R161). -/
def State.writeImage (s : State) (g : Nat) : State := (s.saggarWrite (dieOfCore (s.at g)) (s.saggarByte g 0) 2048).chargeSaggar g 2048

/-- Reading the image of a context, or a message of its, from the saggar meets poison: the context is killed (R409, R411). -/
def State.poisonKill (s : State) (g m : Nat) : State :=
  if s.saggarPoisoned (dieOfCore (s.at g)) (s.saggarByte g m) (if m = 0 then 2048 else 32) then s.parityKill g else s

/-- One more image fits the core: its cache has a free entry, or the quota room for the evicted one (R161). -/
def State.imageRoom (s : State) (core : Nat) : Bool :=
  decide ((s.core core).tcc.length < 48) || s.saggarRoom core 2048

/-- An image enters the thread-context cache; the least recently used one of a full cache goes to the saggar, and its context,
if it waits, is Spilled (R148, R161). -/
def State.imageIn (s : State) (g : Nat) : State :=
  let core := s.at g
  let k := s.core core
  match k.tcc with
  | old :: rest =>
    if 48 ≤ k.tcc.length then
      let s := s.setCore core { k with tcc := rest ++ [g] }
      let s := s.writeImage old
      s.modCtx old fun c => if c.st = .cached then { c with st := .spilled } else c
    else s.setCore core { k with tcc := k.tcc ++ [g] }
  | [] => s.setCore core { k with tcc := [g] }

/-- An image leaves for a slot: from the cache, or from the saggar with its charge. -/
def State.imageOut (s : State) (g : Nat) : State :=
  let core := s.at g
  let k := s.core core
  if k.tcc.contains g then s.setCore core { k with tcc := k.tcc.filter fun x => x != g }
  else s.chargeSaggar g (-2048)

/-! What stands at a core. -/

/-- The contexts in a core's ready queue that a slot may be looked for: those whose kill is under way never issue again (R381). -/
def State.queued (s : State) (core : Nat) : List ReadyEntry := (s.core core).ready.filter fun e => (s.ctx e.gid).kill.isNone

/-- A context of a level or a higher one waits in the core's queue (R163, R175). -/
def State.outranked (s : State) (core : Nat) (prio : BitVec 2) : Bool := (s.queued core).any fun e => decide (prio.toNat ≤ e.level.toNat)

/-- A slot of the core is reserved for a context (R154). -/
def Core.reservedFor (k : Core) (g : Nat) : Bool := (List.range Config.slots).any fun i => (k.slot i).reserved == some g

/-- The contexts of a core. -/
def State.ctxsOf (s : State) (core : Nat) : List (Nat × Ctx) := s.ctxs.filter fun x => x.2.at x.1 == core

/-- A context taken out of its core's ready queue. -/
def State.unready (s : State) (g : Nat) : State :=
  s.modCore (s.at g) fun k => { k with ready := k.ready.filter fun e => e.gid != g }

/-- The first context of a ready queue that a slot may be looked for: highest level, then first in (R158, R159); a pair that has its
reservation waits for that slot alone (R154). -/
def State.firstReady (s : State) (core : Nat) : Option ReadyEntry :=
  [3, 2, 1, 0].findSome? fun (l : Nat) => (s.queued core).find? fun e => e.level.toNat == l && !(s.core core).reservedFor e.gid

/-- A core can take a task record of its deque: a twin one as the even core of a pair that is present (R417). -/
def State.canTake (s : State) (core : Nat) (t : TaskRec) : Bool := !t.twin || (core % 2 == 0 && (s.core (core + 1)).present)

/-! Slots. -/

/-- A slot without an occupant from now on, whose next occupant issues d cycles on at the earliest. -/
def State.emptySlot (s : State) (core slot d : Nat) : State :=
  (s.modCore core fun k => k.setSlot slot { k.slot slot with occ := none, freeAt := s.cycle + d }).kick core

/-- A context leaves its slot as Ready at the tail of its level (R163, R175); the swap takes 48 cycles (R164). -/
def State.leaveReady (s : State) (g : Nat) : State :=
  let c := s.ctx g
  match c.slot with
  | none => s
  | some k => ((s.imageIn g).makeReady g k).emptySlot (s.at g) k 48

/-- A Parked context is displaced: it becomes Cached (R162). -/
def State.displace (s : State) (g : Nat) : State :=
  let c := s.ctx g
  match c.slot with
  | none => s
  | some k =>
    let s := s.setCtx g { c with st := .cached, slot := none, latch := none, fills := [], ufetch := [], leaves := false, resuming := false }
    let s := s.unpost .parkResume g
    (s.imageIn g).emptySlot (s.at g) k 48

/-! Instructions. -/

/-- X at an entry PC for the issuing context (R172, R173). -/
def State.mayRun (s : State) (pc : Word) : Bool :=
  let c := s.ctx s.cur
  c.prv || Rights.cover (s.plbRights (s.at s.cur) c.domain pc) 4

/-- The checks of SPAWN, in order (R172). -/
def State.spawnCheck (s : State) (x pc : Word) : Option Trap :=
  let cores := s.coresOf (s.at s.cur)
  if bits pc 63 57 ≠ 0 then some (Cause.misaligned, pc)
  else if bits pc 1 0 ≠ 0 then some (Cause.badTarget, pc)
  else if bits x 31 10 ≠ 0 ∨ cores.length ≤ bits x 9 0 then some (Cause.protection, x)
  else if !s.mayRun pc then some (Cause.protection, pc)
  else if !(s.core (cores.getD (bits x 9 0) 0)).present then some (Cause.absentCore, x)
  else none

/-- SPAWN (R172). -/
def execSpawn (d a b : SReg) (s : State) : Host.Outcome State Fault Refusal :=
  let c := s.ctx s.cur
  let x := c.getS a
  let pc := c.getS b
  .next (s.issueC (.spawn d a b) none (s.spawnCheck x pc) fun e =>
    let core := (s.coresOf (s.at s.cur)).getD (bits x 9 0) 0
    s.beginRelease e (scopeMask (s.at s.cur) .module) (.spawn core ((x >>> 32).setWidth 32) pc d) d)

/-- The checks of FORK, in order (R173). -/
def State.forkCheck (s : State) (pc j : Word) : Option Trap :=
  let c := s.ctx s.cur
  if bits pc 63 57 ≠ 0 then some (Cause.misaligned, pc)
  else if j ≠ 0 ∧ (bits j 63 57 ≠ 0 ∨ bits j 5 0 ≠ 0) then some (Cause.misaligned, j)
  else if bits pc 1 0 ≠ 0 then some (Cause.badTarget, pc)
  else if !s.mayRun pc then some (Cause.protection, pc)
  else if j ≠ 0 ∧ !c.prv ∧ !Rights.cover (s.plbRights (s.at s.cur) c.domain j) 8 then some (Cause.protection, j)
  else none

/-- The steal code of a context's packet (R156). -/
def State.stealSize (s : State) (g : Nat) : Nat :=
  match (s.ctx g).packet with
  | none => 0
  | some p =>
    match s.packet (p / 4096) (p % 4096) with
    | none => 0
    | some q => bits (q.words.getD 5 0) 59 56

/-- The stealing domain of a core: the aligned block of 2^S partition-relative cores (R156). -/
def State.stealDomain (s : State) (core size : Nat) : List Nat :=
  let r := s.relCore core
  ((s.coresOf core).drop (r / 2 ^ size * 2 ^ size)).take (2 ^ size)

/-- The scope of FORK's release (R173). -/
def State.forkScope (s : State) (core size : Nat) : Scope :=
  if size ≤ 3 then .cluster
  else if (s.stealDomain core size).all fun k => dieOfCore k == dieOfCore core then .die else .module

/-- The task record of a FORK (R165). -/
def State.taskRec (s : State) (g : Nat) (pc j : Word) : TaskRec :=
  let c := s.ctx g
  ⟨pc.setWidth 57, c.prio, c.pre, BitVec.ofNat 4 (s.stealSize g), #v[c.s[4], c.s[5], c.s[6], c.s[7]], j.setWidth 57, c.tscale,
    c.tfmt, c.domain, c.packet.getD 0xFFFFFFFF, c.twinned, s.at g⟩

/-- FORK (R173). -/
def execFork (d a b : SReg) (s : State) : Host.Outcome State Fault Refusal :=
  let c := s.ctx s.cur
  let pc := c.getS a
  let j := c.getS b
  .next (s.issueC (.fork d a b) none (s.forkCheck pc j) fun e =>
    let core := s.at s.cur
    s.beginRelease e (scopeMask core (s.forkScope core (s.stealSize s.cur))) (.fork (s.taskRec s.cur pc j) d) d)

/-- QUIT: the context parks, and its drain is looked for until it ends (R174); the leader of a pair holds it at the comparator first
(R196, R413). -/
def execQuit (s : State) : Host.Outcome State Fault Refusal :=
  .next (s.issueC .quit none none fun _ =>
    let quitting := fun (t : State) => t.modCtx s.cur fun c =>
      { c.countIssue s.cycle with latch := none, phase := 0, readyAt := s.cycle + 1, wcount := 0 }
    if s.leads then ((quitting (s.notePoint none)).modCtx s.cur fun c => { c with held := some .quit, relMask := 0 }).park s.cur .comparator
    else ((quitting s).park s.cur .drain).post 0 .quitComplete s.cur)

/-- YIELD gives up the slot: a context of its level or a higher one is Ready, and an image may enter the cache (R175). A twin
context never does (R377). -/
def State.yields (s : State) (g : Nat) : Bool :=
  let c := s.ctx g
  c.twin.isNone && s.outranked (s.at g) c.prio && s.imageRoom (s.at g)

/-- A context that is to leave its slot does so, or parks until no register is pending and no access outstanding. -/
def State.leaveOrPark (s : State) (g : Nat) : State :=
  let c := s.ctx g
  if c.pend = [] ∧ c.outstanding = none then (s.setCtx g { c with phase := 0, wait := .none }).leaveReady g
  else (s.setCtx g { c with phase := 1 }).park g (if c.pend = [] then .issue else .regs)

/-- YIELD (R175). -/
def execYield (s : State) : Host.Outcome State Fault Refusal :=
  .next (s.issueC .yield none none fun e =>
    if s.yields s.cur then
      let t := s.finish s.cur e s.nextPc false
      (t.modCtx s.cur fun c => { c with marker := s.bun.marker }).leaveOrPark s.cur
    else s.retire e)

/-- Cycles until a die's timebase reaches a deadline, or one at least. -/
def State.cyclesUntil (s : State) (die : Nat) (deadline : Word) : Nat :=
  let d := s.die die
  Nat.max 1 (d.timeAt + (((deadline - d.timeBase).toNat * s.mhz - d.timeFrac + 999) / 1000).toNat - s.cycle)

/-- The deadline has passed: (int64)(TIME − deadline) ≥ 0 (R176). -/
def State.passed (s : State) (die : Nat) (deadline : Word) : Bool := (0 : Word).sle (s.time die - deadline)

/-- WAITT_DEADLINE is put on the agenda for when the deadline should pass; while the timebase stands, TIMESET does it. -/
def State.postDeadline (s : State) (g : Nat) (deadline : Word) : State :=
  let die := dieOfCore (s.at g)
  if (s.die die).timeSet then s.postSoon (s.cyclesUntil die deadline) .waittDeadline g else s

/-- The same for the grace deadline of a withdrawal (R425). -/
def State.postGrace (s : State) (l : Lease) : State :=
  let die := dieOfCore l.ident
  if l.stage = 1 ∧ (s.die die).timeSet = true then s.postSoon (s.cyclesUntil die l.grace) .graceDeadline l.key else s

/-- WAITT: d receives TIME at the turn of resumption (R176); a wake flag of an arrival-match entry ends it at once (R345). -/
def execWaitt (d a b : SReg) (s : State) : Host.Outcome State Fault Refusal :=
  let c := s.ctx s.cur
  let deadline := c.getS a + c.getS b
  .next (s.issueC (.waitt d a b) none none fun e =>
    let t := (s.retireParked e (.waitt deadline)).modCtx s.cur fun c => { c with dest := d, wake := false }
    if c.wake || s.passed (dieOfCore (s.at s.cur)) deadline then t.awaken s.cur else t.postDeadline s.cur deadline)

end Sys2Proof.Machine
end

