-- ==== Sys2Proof/Machine/Messages.lean ====
section
/-!
DEFINITION. The inbox and arrival-match entries, and SEND, RECV and MATCH (spec/16_messages_and_networks.md R337 to R347).
-/
namespace Sys2Proof.Machine

/-- The scope of two cores (R292). -/
def coreScope (a b : Nat) : Scope :=
  if a = b then .core else if clusterOf a = clusterOf b then .cluster
  else if dieOfCore a = dieOfCore b then .die else .module

/-- SEND (R343). -/
def execSend (d a b : SReg) (ovr : Option Scope) (nw : Bool) (s : State) : Host.Outcome State Fault Refusal :=
  let c := s.ctx s.cur
  let x := c.getS a
  let dest := bits x 31 0
  let core := s.at s.cur
  let near := if bits x 31 22 = Config.moduleNumber then coreScope core (coreOf dest) else Scope.pod
  let p0 := if b = 0 then 0 else c.getS b
  let p1 := if b = 0 then 0 else c.getS (SReg.next b 1)
  .next (s.issueMem (.send d a b ovr nw) false none fun e =>
    s.beginRelease e (scopeMask core (near.max (ovr.getD .core))) (.send dest (word (0x10 + 2 ^ 32 * bits x 63 32)) p0 p1 nw) d)

/-- A context's messages in arrival order: those in the inbox, then those in the saggar (R339). -/
def Core.messages (k : Core) (g : Nat) : List (Message × Bool) :=
  ((k.inbox.filter fun m => m.dest == g).map fun m => (m, false)) ++
  (k.saggarMsgs.filter fun m => m.dest == g).map fun m => (m, true)

/-- The oldest message that RECV may take (R344). -/
def Core.candidate (k : Core) (g : Nat) (tag : Option Nat) : Option (Message × Bool) :=
  (k.messages g).find? fun m => match tag with | none => true | some t => bits m.1.w0 63 32 == t

/-- The four words of a message in s_d to s_(d+3). -/
def messageWrites (d : SReg) (w0 w1 w2 w3 : Word) : List RegWrite :=
  [setS d w0, setS (SReg.next d 1) w1, setS (SReg.next d 2) w2, setS (SReg.next d 3) w3]

/-- The oldest spilled message of a core is read from the saggar, to be brought in (R339, R347). -/
def State.startRefill (s : State) (core : Nat) : State :=
  match (s.core core).saggarMsgs with
  | [] => s
  | m :: _ => let t := s.saggarRead (dieOfCore core) (s.saggarByte m.dest m.seq) 32; t.2.postOnce t.1 .inboxRefill core

/-- A message's place given back: its inbox entry, whose freeing brings spilled messages in, or its saggar space (R339). -/
def State.freeMessage (s : State) (core : Nat) (m : Message) (inSaggar : Bool) : State :=
  if inSaggar then
    (s.modCore core fun k => { k with saggarMsgs := k.saggarMsgs.filter fun x => x != m }).chargeSaggar m.dest (-32)
  else
    let s := s.modCore core fun k => { k with inbox := k.inbox.filter fun x => x != m }
    s.startRefill core

/-- The ENGINE_ERROR recorded for a context is raised (R190, R344), and passed to its trailer (R418). -/
def State.raiseEngine (s : State) (g : Nat) : State :=
  let s := s.modCtx g fun c => c.promote Cause.engineError
  (s.passTwin g (.cause Cause.engineError (s.ctx g).rtval true)).raiseRecorded g

/-- RECV (R344). -/
def execRecv (d a : SReg) (tag nw : Bool) (s : State) : Host.Outcome State Fault Refusal :=
  let g := s.cur
  let c := s.ctx g
  let core := s.at g
  let error := if c.hasRecorded Cause.engineError then some (s.raiseEngine g) else none
  .next (s.issueLate (.recv d a tag nw) none none error fun e =>
    match (s.core core).candidate g (if tag then some (bits (c.getS a) 31 0) else none) with
    | none => if nw then s.retireRes (messageWrites d 0 0 0 0) e else s.holdIssue .recv
    | some (m, inSaggar) =>
      if inSaggar && c.phase != 2 then
        let t := s.saggarRead (dieOfCore core) (s.saggarByte g m.seq) 32
        (t.2.holdIssue .recv).post t.1 .inboxRefill core (g + 1)
      else
        let s := (s.freeMessage core m inSaggar).invalidateL1 core
        (s.modCtx g fun c => { c with phase := 0 }).retireRes (messageWrites d m.w0 m.w1 m.w2 m.w3) e)

/-- MATCH's result, and its entry's index when one is registered (R345). -/
def State.matchResult (s : State) (g : Nat) (x y : Word) : Except Word Nat :=
  let core := s.at g
  let k := s.core core
  let named := gidOf core (bits x 43 32)
  let n := s.ctx named
  if bits x 63 44 ≠ 0 ∨ bits y 63 32 ≠ 0 ∨ bits y 31 0 = 0 ∨ n.st = .free ∨
      (!(s.ctx g).prv ∧ n.domain ≠ (s.ctx g).domain) then .error 0xFFFFFFFFFFFFFFFD
  else if k.arrivals.any fun m => m.2.tag.toNat == bits x 31 0 then .error 0xFFFFFFFFFFFFFFFE
  else
    match (List.range 16).find? fun i => (mapGet k.arrivals i).isNone with
    | none => .error 0xFFFFFFFFFFFFFFFF
    | some i => .ok i

/-- MATCH registers an arrival-match entry (R345). -/
def execArrMatch (d a b : SReg) (wake : Bool) (s : State) : Host.Outcome State Fault Refusal :=
  let c := s.ctx s.cur
  let x := c.getS a
  let y := c.getS b
  let core := s.at s.cur
  .next (s.issueC (.arrMatch d a b wake) none none fun e =>
    match s.matchResult s.cur x y with
    | .error v => s.retireRes [setS d v] e
    | .ok i =>
      let m : MatchEntry := ⟨x.setWidth 32, gidOf core (bits x 43 32), s.cur, bits y 31 0, 0, wake⟩
      (s.modCore core fun k => { k with arrivals := mapSet k.arrivals i m }).retireRes [setS d (word i)] e)

/-! What other agents do with messages. -/

/-- A core takes a message for a context number (R339): into a free inbox entry if the context has none in the saggar, else into
the saggar within the quota; none when neither has room. -/
def State.acceptMessage (s : State) (core : Nat) (m : Message) : Option State :=
  let k := s.core core
  let m := { m with seq := s.nextId }
  if k.inbox.length < 64 ∧ k.saggarMsgs.all (fun x => x.dest != m.dest) ∧ !s.swappedOut m.dest then
    some (s.fresh.2.setCore core { k with inbox := k.inbox ++ [m] })
  else if s.saggarRoomFor m.dest 32 then
    some ((s.fresh.2.setCore core { k with saggarMsgs := k.saggarMsgs ++ [m] }).chargeSaggar m.dest 32)
  else none

/-- A context that waits in RECV looks again (R344). -/
def State.noticeMessage (s : State) (g : Nat) : State :=
  let c := s.ctx g
  if c.wait = .recv ∧ c.st ≠ .running ∧ c.st ≠ .ready ∧ c.st ≠ .free then s.awaken g else s

/-- A message posted by an engine, the dispatcher, the Assay or a match entry, d cycles from now. -/
def State.postMessage (s : State) (d dest src : Nat) (w0 w1 w2 w3 : Word) : State :=
  let m := s.sendMsg (.posted dest ⟨dest, 0, w0, w1, w2, w3⟩ src)
  m.2.post d .messageArrival (coreOf dest) m.1

end Sys2Proof.Machine
end

