-- ==== Sys2Proof/Machine/Pairs.lean ====
section
/-!
DEFINITION. The turns of twin pairs (spec/07_fetch_and_issue.md R195, R196, spec/08_scalar_instructions.md R219,
spec/21_reliability_and_leases.md R413 to R418): what a leader holds at the comparator or takes from retained entries, and what a
trailer takes from the load-value queue in place of acting itself.
-/
namespace Sys2Proof.Machine

/-! Kinds of bundles. -/

/-- How a bundle of a pair runs: in both contexts alike; as a compare point (R413); as a load, whose values pass to the trailer
(R195); or as an instruction that the leader alone performs and whose results pass (R219, notes/assumptions/20.md). -/
inductive PairKind where
  | both | point | load (addr : Word) | passes
  deriving DecidableEq, Repr

/-- The kind of a C-side instruction, with a load's address. -/
def pairKind (c : Ctx) : Instr → PairKind
  | .ldb o | .ldbu o => .load (c.getS o.base + o.off.value 1)
  | .ldh o | .ldhu o => .load (c.getS o.base + o.off.value 2)
  | .ldw o | .ldwu o => .load (c.getS o.base + o.off.value 4)
  | .ldd o => .load (c.getS o.base + o.off.value 8)
  | .lda o => .load (c.getS o.base + o.off.value 8)
  | .vld o => .load (c.getS o.base + o.off.value 64)
  | .vlds o => .load (c.getS o.a)
  | .gld o => .load (c.getS o.base + o.off.value 256)
  | .stb _ | .sth _ | .stw _ | .std _ | .stl _ | .vst _ | .vsts _ | .gst _ => .point
  | .bkadd _ | .bkmax _ | .bkscl _ | .bkfma _ | .bksmx _ | .bkcvt _ | .bkfill _ | .bkred _ => .point
  | .oinit _ | .ofree _ | .oread _ | .cadd _ | .cwait _ | .cset _ | .barr _ | .bwait _ | .barw _ | .ltake _ | .lgive _
  | .qput _ | .qget _ | .kwait _ | .ksig _ | .kall _ | .feget _ | .feput _ | .fepeek _ => .point
  | .aadd _ | .aswap _ | .acas _ | .amax _ | .amin _ | .aand _ | .aor _ | .axor _ => .point
  | .send _ _ _ _ _ | .mxc _ _ | .cpc _ _ | .spawn _ _ _ | .fork _ _ _ | .kill _ _ _ _ | .halt | .quit => .point
  | .fence _ _ | .estat _ _ _ | .mfc _ _ | .recv _ _ _ _ | .arrMatch _ _ _ _ | .plbw _ _ _ | .waitt _ _ _ => .passes
  | _ => .both

/-- Both contexts perform the compare point: each pushes to its own matrix unit, and both end (R332, R417). -/
def actsInBoth : Instr → Bool
  | .mxc _ _ | .quit => true
  | _ => false

/-! Entries taken from the queue. -/

/-- The entry that the trailer takes next: of the leader's queue. -/
def State.nextEntry (s : State) (t : TwinInfo) : Option QueueVal :=
  match (s.ctx t.partner).twin with
  | none => none
  | some l => l.queue[l.taken]?

/-- The entry that a replaying leader takes next (R415). -/
def TwinInfo.replayEntry (t : TwinInfo) : Option QueueVal :=
  if t.replaying = 0 then none else t.queue[t.queue.length - t.replaying]?

/-- One entry consumed by the trailer; those of a compare point are freed with it (R414). -/
def State.consume (s : State) (lead : Nat) (free : Bool) : State :=
  s.modCtx lead fun c => c.modTwin fun t =>
    if free then { t with queue := t.queue.eraseIdx t.taken } else { t with taken := t.taken + 1 }

/-- What the bundle does in its own core besides the results it takes: PLBW writes the core's own PLB, once its checks passed, ESTAT.clr
clears the flag, and WAITT takes the wake flag (R345, R387, R417). -/
def State.ownPart (s : State) (i : Instr) : State :=
  let c := s.ctx s.cur
  match i with
  | .plbw _ a b =>
    if (c.getS a).toNat < 64 then
      s.modCore (s.at s.cur) fun k => { k with plb := mapSet k.plb (c.getS a).toNat (c.getS b) }
    else s
  | .estat _ _ true => s.modCtx s.cur Ctx.clearEngine
  | .waitt _ _ _ => s.modCtx s.cur fun c => { c with wake := false }
  | _ => s

/-- The bundle in issue completes with the results it was passed, and its tail; a FENCE then raises what was recorded (R190). -/
def State.retireTaken (s : State) (ws : List RegWrite) : State :=
  let g := s.cur
  match tailEffect s.bun.tail (s.ctx g) with
  | .error t => s.beginTrap g ⟨t.1, t.2, (s.ctx g).pc, false, s.cycle⟩
  | .ok e =>
    let s := (s.ownPart s.bun.op).retire (Effect.join (Effect.turn ws) e)
    match s.bun.op with
    | .fence _ _ => if (s.ctx g).rcause ≠ 0 ∧ (s.ctx g).st = .running then s.raiseRecorded g else s
    | _ => s

/-- A cause that the leader took, taken at the same bundle (R418); the recorded one that RECV names is recorded in both. -/
def State.takeCause (s : State) (c : Nat) (tval : Word) (late : Bool) : State :=
  let s := s.modCtx s.cur fun c => c.modTwin fun x => { x with released := false, holding := false }
  if c = Cause.engineError ∧ (s.ctx s.cur).hasRecorded c = true then (s.modCtx s.cur fun x => x.promote c).raiseRecorded s.cur
  else s.beginTrap s.cur ⟨c, tval, (s.ctx s.cur).pc, late, s.cycle⟩

/-! What a turn of a pair does. -/

/-- A turn of a twin context: it passes, or its bundle runs as in any context, or the comparator is told of a mismatch. -/
inductive PairTurn where
  | pass (s : State)
  | run
  | mismatch
  deriving DecidableEq, Repr

/-- The turn passes unused. -/
def State.idle (s : State) : State := s.modCtx s.cur fun c => { c with readyAt := s.cycle + 1 }

/-- What the comparator compares of the bundle in issue. -/
def State.present (s : State) : State :=
  s.modCtx s.cur fun c => c.modTwin fun t => { t with heldBun := some s.bun, sig := c.operands s.bun.op }

/-- The trailer's slot waits for the comparator's release. -/
def State.awaitRelease (s : State) : State :=
  let s := s.modCtx s.cur fun c => { c.modTwin fun t => { t with holding := true, issuedAt := s.cycle } with readyAt := s.cycle + 1 }
  s.park s.cur .comparator

/-- The leader at a compare point: once no register is pending it issues it, with its checks, and holds its action (R196, R413). -/
def State.leaderPoint (s : State) : PairTurn := if (s.ctx s.cur).pend ≠ [] then .pass (s.park s.cur .regs) else .run

/-- The leader's turn (R196, R415). -/
def State.leaderTurn (s : State) (t : TwinInfo) : PairTurn :=
  let c := s.ctx s.cur
  match t.replayEntry with
  | some v =>
    if v.bundle = t.issued then
      let s' := s.modCtx s.cur fun c => c.modTwin fun t => { t with replaying := t.replaying - 1 }
      match v.kind with
      | .load _ ws => .pass (s'.retireTaken ws)
      | .results ws => .pass (s'.retireTaken ws)
      | .cause x tv late => .pass (s'.takeCause x tv late)
      | .waiting _ _ _ => .pass s.idle
    else if pairKind c s.bun.op = .point then s.leaderPoint
    else .run
  | none => if pairKind c s.bun.op = .point then s.leaderPoint else .run

/-- The trailer at a compare point that the comparator released: its outcome is taken from the queue (R417). -/
def State.trailerPoint (s : State) (t : TwinInfo) (entry : Option QueueVal) : PairTurn :=
  let i := s.bun.op
  match entry with
  | some v =>
    match v.kind with
    | .results ws => if actsInBoth i then .run else .pass ((s.consume t.partner true).retireTaken ws)
    | _ => .pass s.idle
  | none => if i = .quit then .run else .pass s.idle

/-- The compare point has an outcome that the trailer takes, or, QUIT, its own part in it: any but a store that does not park, a bank
command and HALT (R417). -/
def State.answers (s : State) (lead : Nat) (h : HeldPoint) : Bool :=
  match h.acc with
  | some id => (s.acc id).any (·.parks)
  | none =>
    match (s.ctx lead).held with
    | some (.store a) => a.parks
    | some .halt => false
    | _ => true

/-- The trailer at the compare point whose action the leader's core holds: the comparator decides within 4 cycles of its issue (R196,
R414). Where there is an outcome, the trailer waits for it (R417); else the next bundle follows. -/
def State.meetPoint (s : State) (t : TwinInfo) (h : HeldPoint) : State :=
  let s := (s.present).post 4 .twinCompare t.partner 0 (h.bundle + 1)
  if s.answers t.partner h then s.awaitRelease else s.retireTaken []

/-- The trailer at a compare point (R195, R414). -/
def State.trailerMeets (s : State) (t l : TwinInfo) : PairTurn :=
  if (s.ctx s.cur).pend ≠ [] then .pass (s.park s.cur .regs)
  else
    match l.points.find? fun h => h.bundle == t.issued with
    | some h => .pass (s.meetPoint t h)
    | none => .mismatch

/-- The trailer's turn (R195, R414, R417). -/
def State.trailerTurn (s : State) (t : TwinInfo) : PairTurn :=
  let c := s.ctx s.cur
  match (s.ctx t.partner).twin with
  | none => .run
  | some l =>
    let next : Option QueueVal := l.queue[l.taken]?
    let entry : Option QueueVal := next.filter fun v => v.bundle == t.issued
    match entry.map QueueVal.kind with
    | some (.cause x tv late) =>
      .pass ((s.consume t.partner t.released).takeCause x tv late)
    | _ =>
      let atPoint := l.points.any fun h => h.bundle == t.issued
      let gone := decide (t.issued + 1 < l.issued) || atPoint || next.any fun v => decide (t.issued < v.bundle)
      match pairKind c s.bun.op with
      | .both => if atPoint then .mismatch else .run
      | .point => if t.released then s.trailerPoint t entry else s.trailerMeets t l
      | .load a =>
        if c.pendHit (bundleReads s.bun.op s.bun.tail ++ bundleWrites s.bun.op s.bun.tail) ≠ none then .pass s.idle
        else
          match entry.map QueueVal.kind with
          | some (.load b ws) => if a = b then .pass ((s.consume t.partner false).retireTaken ws) else .mismatch
          | some (.waiting _ b _) => if a = b then .pass s.idle else .mismatch
          | some _ => .mismatch
          | none => if gone then .mismatch else .pass s.idle
      | .passes =>
        if c.pendHit (bundleReads s.bun.op s.bun.tail ++ bundleWrites s.bun.op s.bun.tail) ≠ none then .pass s.idle
        else
          match entry.map QueueVal.kind with
          | some (.results ws) => .pass ((s.consume t.partner false).retireTaken ws)
          | some _ => .mismatch
          | none => if gone then .mismatch else .pass s.idle

/-- The turn of a twin context whose bundle is decoded; another context's runs. -/
def State.pairTurn (s : State) : PairTurn :=
  match (s.ctx s.cur).twin with
  | none => .run
  | some _ =>
    let s := s.modCtx s.cur Ctx.checkpointed
    match (s.ctx s.cur).twin with
    | none => .run
    | some t => if t.leader then s.leaderTurn t else s.trailerTurn t

end Sys2Proof.Machine
end

