-- ==== Sys2Proof/Machine/Returns.lean ====
section
/-!
DEFINITION. Steps of fetch, parks and results: ILLEGAL_OP, ASYNC_CAUSE_TAKEN, ESCALATION_LOGGED, FETCH, ICACHE_FILL,
PARK_RESUME, RESULT_RETURN, L1_FILL, LOAD_DATA_RETURN and STORE_ACK (spec/07_fetch_and_issue.md R178 to R193,
spec/10_memory.md R244, R254, R257, R258, spec/18_traps_and_preemption.md R365 to R367).
-/
namespace Sys2Proof.Machine

/-- ILLEGAL_OP: the words of a turn are no instruction, or could not be fetched: the cause is raised precisely (R17, R183). -/
def execIllegalOp (s : State) : Host.Outcome State Fault Refusal :=
  if (s.ctx s.arg.who).st = .running then .next (s.raiseAt s.arg.who (s.arg.what, word s.arg.val)) else .next s

/-! Asynchronous causes. -/

/-- The asynchronous or fatal cause that is taken first (R365); a fatal one's TVAL, which KILLED lacks (R382). -/
def Ctx.firstAsync (c : Ctx) : Option Nat :=
  [Cause.killed, Cause.parityKill, Cause.twinMismatch, Cause.quota, Cause.watchdog].find? fun x => c.async.contains x

/-- TVAL of a fatal cause taken at a turn: KILLED has none (R382). -/
def Ctx.tvalOf (c : Ctx) (cause : Nat) : Word := if cause = Cause.killed then 0 else c.fatalTval

/-- ASYNC_CAUSE_TAKEN: a fatal cause starts the kill sequence in every state; another is taken at the context's turn (R365,
R366). A Swapped context is killed when its partition is swapped in (R381). -/
def execAsyncCauseTaken (s : State) : Host.Outcome State Fault Refusal :=
  let g := s.arg.who
  let c := s.ctx g
  match c.firstAsync with
  | none => .next s
  | some x =>
    if Cause.fatal x then
      if c.st = .swapped ∨ c.st = .free then .next s
      else .next (s.startKill g x (c.tvalOf x) c.pc (if x = Cause.killed then c.killer else 0xFFFFFFFF))
    else if c.st = .running then
      let s := if x = Cause.quota then s.passTwin g (.cause x c.asyncTval true) else s
      let c := s.ctx g
      .next ((s.setCtx g { c with async := c.async.filter fun y => y != x }).beginTrap g ⟨x, c.asyncTval, c.pc, true, s.cycle⟩)
    else .next s

/-- A record appended to a partition's trap log (R383). -/
def Log.push (l : Log) (ring : Nat) (r : List Word) : Log := ⟨l.seq + 1, (r :: l.records).take ring⟩

/-- ESCALATION_LOGGED: the record stands in the trap log, and the supervisor handler is entered (R367). -/
def execEscalationLogged (s : State) : Host.Outcome State Fault Refusal :=
  let g := s.arg.who
  let c := s.ctx g
  match c.trap with
  | none => .next s
  | some r =>
    if c.wait = .escalation then
      let v := (s.partOfCore (s.at g)).getD 0
      let rec_ := [word (g + 2 ^ 32 * (tcauseOf r true false).toNat), r.pc, r.tval, s.time (dieOfCore (s.at g))]
      .next (((s.modPart v fun p => { p with trapLog := p.trapLog.push 4096 rec_ }).enterTrap g r).lookReady (s.at g))
    else .next s

/-! Fetch. -/

/-- FETCH: the slot's next bundle, or the target of its transfer, which is checked now (R181, R184). -/
def execFetch (s : State) : Host.Outcome State Fault Refusal :=
  let g := s.arg.who
  let c := s.ctx g
  if (c.st = .running ∨ c.st = .parked) ∧ c.latch = none ∧ c.fills = [] ∧ c.trap = none ∧ c.kill = none ∧ c.wait ≠ .drain then
    match c.undo, c.transfer with
    | some u, _ => .next (s.fetchTarget g u)
    | none, some t => .next (s.resumeTransfer g t)
    | none, none => .next (s.doFetch g)
  else .next s

/-- A context whose missing sector came, or failed. -/
def State.afterFill (s : State) (sector : Nat) (ok : Bool) (g : Nat) : State :=
  let c := s.ctx g
  let s := s.setCtx g { c with fills := [] }
  match c.transfer with
  | some t =>
    if ok then s.resumeTransfer g t
    else (s.modCtx g fun c => { c with transfer := none }).raiseAt g (Cause.translation, t.target)
  | none =>
    if ok then
      let s := if c.latch = none then s.doFetch g else s
      if c.wait = .fetchFill ∧ (s.ctx g).fills = [] then s.awaken g else s
    else if c.latch.isSome then
      let s := s.modCtx g fun c => { c with nofetch := sector :: c.nofetch }
      if c.wait = .fetchFill then s.awaken g else s
    else
      let a := if c.pc.toNat / 64 * 64 = sector then c.pc else word sector
      let s := s.modCtx g fun c => { c with latch := some (.failed Cause.translation a) }
      if c.wait = .fetchFill then s.awaken g else s

/-- A context needed a sector that is poisoned (R411). DEDUCED, notes/assumptions/31.md. -/
def State.poisonFill (s : State) (sector g : Nat) : State :=
  let c := s.ctx g
  let at_ := match c.transfer with | some t => t.target | none => c.pc
  s.sendFatal g Cause.parityKill (if at_.toNat / 64 * 64 = sector then at_ else word sector) 0xFFFFFFFF

/-- A sector of a U page is delivered to a slot that waits for it, and to no cache (R71); a slot that counts a bundle's words keeps each
that it waited for (R373). -/
def State.deliver (s : State) (g sector : Nat) (f : IFill) : State :=
  match f.data with
  | some d =>
    if f.uncached ∨ (s.ctx g).latch.isSome = true then s.modCtx g fun c => { c with ufetch := ⟨sector, d⟩ :: c.ufetch } else s
  | none => s

/-- ICACHE_FILL: a sector arrives, is installed unless an invalidation came between or its page is a U page, and the slots that wait
for it go on; a further fill may leave (R71, R182, R264). -/
def execIcacheFill (s : State) : Host.Outcome State Fault Refusal :=
  let core := s.arg.who
  let sector := s.arg.what
  let k := s.core core
  match k.ifills.find? fun f => f.sector == sector && f.sent with
  | none => .next s
  | some f =>
    let k := { k with ifills := k.ifills.filter fun x => x.sector != sector }
    let k := match f.data with
      | some d => if f.drop || f.uncached then k else { k with l1i := cacheInsert l1Set 4 k.l1i sector d }
      | none => k
    let s := (s.setCore core k).sendFills core
    let gs := (s.ctxs.filter fun x => x.2.at x.1 == core && x.2.fills.contains sector).map (·.1)
    .next (gs.foldl (fun s g =>
      if f.poison then s.poisonFill sector g else (s.deliver g sector f).afterFill sector f.data.isSome g) s)

/-! Resuming. -/

/-- The marker of a bundle whose own park has ended (R189, R190). -/
def State.resumeMarker (s : State) (g : Nat) : State :=
  let c := s.ctx g
  if c.pend ≠ [] then s.park g .regs
  else
    let s := s.setCtx g { c with marker := false }
    if c.rcause ≠ 0 then s.raiseRecorded g
    else (s.setCtx g { c with marker := false, st := .running, wait := .none, readyAt := s.cycle }).lookReady (s.at g)

/-- A parked slot issues again, once its next bundle is fetched (R179, R182); the core looks whether it is to be pre-empted (R163). -/
def State.resumeSlot (s : State) (g : Nat) : State :=
  let c := s.ctx g
  let s := if c.latch = none ∧ c.fills = [] then s.doFetch g else s
  let c := s.ctx g
  if c.latch = none then s.park g .fetchFill
  else if c.marker then s.resumeMarker g
  else (s.setCtx g { c with st := .running, wait := .none, readyAt := s.cycle }).lookReady (s.at g)

/-- PARK_RESUME: the first turn after the awaited event (R179), or of a context that came into its slot with something to do first
(R148). A WAITT writes TIME now (R176); a context that gave up its slot leaves it (R175); the marker follows (R189). -/
def execParkResume (s : State) : Host.Outcome State Fault Refusal :=
  let g := s.arg.who
  let c := s.ctx g
  if (c.st ≠ .parked ∧ c.st ≠ .running) ∨ !c.resuming ∨ c.kill.isSome then .next s
  else
    let s := s.setCtx g { c with resuming := false }
    match s.stopped (s.at g) with
    | some w =>
      .next (s.modCtx g fun c =>
        { c with st := .parked, arrived := true, wait := match c.wait with | .waitt d => .waitt d | .handler => .handler | _ => w })
    | none =>
      match c.wait, c.trap with
      | .handler, some r => .next (s.continueTrap g r)
      | .waitt _, _ => .next ((s.applyHeld g [setS c.dest (s.time (dieOfCore (s.at g)))]).resumeSlot g)
      | _, _ =>
        if c.phase ≠ 1 then .next (s.resumeSlot g)
        else if c.pend = [] ∧ c.outstanding = none ∧ !s.yields g then .next ((s.modCtx g fun c => { c with phase := 0 }).resumeSlot g)
        else .next (s.leaveOrPark g)

/-! Results. -/

/-- No register of a slot is pending any more: a marker's park or a trap's ends (R188, R189), and a Ready context of the core may
displace it (R162). -/
def State.afterReturn (s : State) (g : Nat) : State :=
  let c := s.ctx g
  if c.pend ≠ [] then s
  else
    let s := s.lookReady (s.at g)
    match c.wait, c.trap with
    | .regs, _ => s.awaken g
    | .handler, some r => s.continueTrap g r
    | _, _ => s.lookDrain g

/-- Whether a pending register's result is due. -/
def Pend.isDue (p : Pend) (now : Nat) : Bool :=
  match p.src with
  | .result due _ => decide (due ≤ now)
  | .load _ => false

/-- The write of a due result. -/
def Pend.write (p : Pend) : RegWrite :=
  match p.src with
  | .result _ v => ⟨p.reg, v⟩
  | .load _ => ⟨.s 0, 0⟩

/-- RESULT_RETURN: long results that are due are written (R186). -/
def execResultReturn (s : State) : Host.Outcome State Fault Refusal :=
  let g := s.arg.who
  let c := s.ctx g
  let due := c.pend.filter fun p => p.isDue s.cycle
  if due = [] then .next s
  else
    let c := { c with pend := c.pend.filter fun p => !p.isDue s.cycle }
    .next ((s.setCtx g (c.setRegs (due.map Pend.write))).afterReturn g)

/-- The context still is the one an access belongs to (R381). -/
def State.sameCtx (s : State) (g : Nat) (gen : BitVec 12) : Bool :=
  let c := s.ctx g
  decide (c.st ≠ .free) && c.gen == gen && c.kill.isNone

/-- The sector that a load's request brought is installed, unless an invalidation that covers it took place since; an S-page sector
homed elsewhere enters the remote-data cache (R244, R249, R264, R300). -/
def State.fillPart (s : State) (a : Access) (p : Part) : State :=
  match p.fill with
  | none => s
  | some (d, shared) =>
    let sec := p.addr.toNat / 64 * 64
    let s := if shared && !a.noRdc.any (fun r => decide (r.1 ≤ sec) && decide (sec < r.2)) then
        s.modDie (dieOfCore a.core) fun x => { x with rdc := cacheInsert rdcSet 16 x.rdc sec d }
      else s
    if a.epoch = (s.core a.core).epoch ∧ !a.noFill.contains (sec / 256) then
      s.modCore a.core fun k => { k with l1d := cacheInsert l1Set 4 k.l1d sec d }
    else s

/-- L1_FILL: the sector of one request of a load, by 1 + the request's number, reaches the core (R244). -/
def execL1Fill (s : State) : Host.Outcome State Fault Refusal :=
  match s.acc s.arg.who with
  | none => .next s
  | some a =>
    match a.parts[s.arg.what - 1]? with
    | none => .next s
    | some p => .next (s.fillPart a p)

/-- The bytes of an access's data, each at its place (R260: of several at one place the last stands). -/
def Access.bytes (a : Access) : List Byte :=
  let at_ := a.parts.flatMap fun p => (p.bytes.map (·.2)).zip p.data
  (List.range a.size).map fun i => ((at_.reverse.find? fun x => x.1 == i).map (·.2)).getD 0

/-- The register writes of a load's data (R257, R259, R392); all ones in the whole destination where the host failed (R137). -/
def Access.writes (a : Access) : List RegWrite :=
  let n := natOfBytes a.bytes
  if a.allOnes then a.dests.map fun r => ⟨r, 2 ^ 512 - 1⟩
  else match a.kind, a.dests with
  | .load sz sg, [r] => [⟨r, if sg then (BitVec.ofNat (8 * sz) n).signExtend 64 |>.toNat else n⟩]
  | .lda _, [r] => [⟨r, n⟩]
  | _, rs => ((List.range rs.length).zip rs).map fun x => ⟨x.2, n / 2 ^ (512 * x.1) % 2 ^ 512⟩

/-- The values of an access that arrived, in place of what the load-value queue holds for it (R196). -/
def State.fillQueue (s : State) (a : Access) : State :=
  s.modCtx a.gid fun c =>
    match c.twin with
    | none => c
    | some t =>
      let fill := fun (v : QueueVal) =>
        match v.kind with
        | .waiting id ad _ => if id = a.id then { v with kind := .load ad a.writes } else v
        | _ => v
      { c with twin := some { t with queue := t.queue.map fill } }

/-- The entries or the place of a finished access are free again (R192, R193). -/
def State.endAccess (s : State) (a : Access) : State :=
  let s := s.dropAcc a.id
  if a.relaxed then if a.entry then s.freeEntry a else s
  else if s.sameCtx a.gid a.gen then s.freeOutstanding a.gid else s

/-- What a failed load does to its context: TRANSLATION of a relaxed one was recorded as it was found, of another it is precise and
fatal at its bundle; poison is fatal (R78, R263, R411). -/
def State.failLoad (s : State) (a : Access) (f : Nat × Word) : State :=
  if f.1 = Cause.parityKill then s.sendFatal a.gid f.1 f.2 0xFFFFFFFF
  else if f.1 = Cause.translation ∧ a.relaxed then s
  else s.startKill a.gid f.1 f.2 a.pc 0xFFFFFFFF

/-- What a load that a fault cancelled leaves in its registers: 0, but their old values under TRANSLATION (R188, R257) and for poison,
which writes no register (R411). -/
def Access.cancelled (a : Access) (f : Nat × Word) : List RegWrite :=
  if f.1 = Cause.translation ∨ f.1 = Cause.parityKill then [] else a.dests.map fun r => ⟨r, 0⟩

/-- A bank command's failure as ENGINE_ERROR, of source 2 (R190, R289, R411). -/
def bankErrorTval (cause : Nat) : Word := word (2 ^ 32 * cause + 2 ^ 41)

/-- The report of a cause that a request of an access found reaches the slot, where it is recorded (R78, R83, R190, R289). -/
def State.takeReport (s : State) (a : Access) (k cause : Nat) : State :=
  match a.parts[k]? with
  | none => s
  | some p =>
    if !s.sameCtx a.gid a.gen then s
    else if a.kind = .bankCmd then s.recordEngine a.gid (bankErrorTval cause) p.addr
    else s.recordAccess a.gid a.id (p.bytes.headD (0, 0)).2 cause p.addr

/-- LOAD_DATA_RETURN: the destinations of a load receive its data and are pending no more (R257); an LDA invalidates L1 a
second time (R300). A load that failed is cancelled. With 1 + the number of a request, its report arrives (R190). -/
def execLoadDataReturn (s : State) : Host.Outcome State Fault Refusal :=
  match s.acc s.arg.who with
  | none => .next s
  | some a =>
    if s.arg.what ≠ 0 then .next (s.takeReport a (s.arg.what - 1) s.arg.val)
    else if a.due ≠ s.cycle then .next s
    else if !s.sameCtx a.gid a.gen then .next (s.endAccess a)
    else
      let c := s.ctx a.gid
      let mine := c.pend.filter fun p => decide (p.src = PendSrc.load a.id)
      let c := { c with pend := c.pend.filter fun p => !decide (p.src = PendSrc.load a.id) }
      match a.fault with
      | some f =>
        let ws := (a.cancelled f).filter fun w => mine.any fun p => p.reg == w.reg
        .next (((s.setCtx a.gid ((c.setRegs ws).noteLoaded ws)).endAccess a |>.failLoad a f).afterReturn a.gid)
      | none =>
        let ws := a.writes.filter fun w => mine.any fun p => p.reg == w.reg
        let s := (s.setCtx a.gid ((c.setRegs ws).noteLoaded ws)).fillQueue a
        let s := match a.kind with
          | .lda sc => if sc = Scope.core then s else s.invalidateL1Late a.gid a.core
          | _ => s
        .next ((s.endAccess a).afterReturn a.gid)

/-- STORE_ACK: the target acknowledges a store, or a bank command has written its last row (R258, R289). A refused store that
parks refuses its bundle (R83); another's OBJ_STORE was recorded as its report came, and its TRANSLATION is fatal (R78). With 1 + the
number of a request, that report arrives (R190). -/
def execStoreAck (s : State) : Host.Outcome State Fault Refusal :=
  match s.acc s.arg.who with
  | none => .next s
  | some a =>
    if s.arg.what ≠ 0 then .next (s.takeReport a (s.arg.what - 1) s.arg.val)
    else if a.due ≠ s.cycle then .next s
    else
      let s := s.endAccess a
      if !s.sameCtx a.gid a.gen then .next s
      else
        match a.fault, a.kind with
        | some _, .bankCmd => .next s
        | some f, _ =>
          if a.parks then .next (s.refuseHeld a.gid f)
          else if a.relaxed ∨ f.1 = Cause.objStore then .next s
          else .next (s.startKill a.gid f.1 f.2 a.pc 0xFFFFFFFF)
        | none, _ => if a.parks then .next (s.completeHeld a.gid []) else .next s

end Sys2Proof.Machine
end

