-- ==== Sys2Proof/Machine/Records.lean ====
section
/-!
DEFINITION. The records that the census shows, in the layouts the spec gives them, and the areas of its pages
(spec/04_objects.md R99, spec/05_launch.md R129, R141, spec/06_contexts_and_placement.md R159, R165,
spec/14_matrix_unit.md R330, spec/16_messages_and_networks.md R337, R357, spec/18_traps_and_preemption.md R374, R382, R383,
spec/21_reliability_and_leases.md R421, R433, spec/23_retirement_and_recovery.md R444, R448, R456). The spec gives no place within a
page and no layout of the other items: notes/assumptions/25.md.
-/
namespace Sys2Proof.Machine

/-! Records. -/

/-- A scope's number (R23). -/
def Scope.code : Scope → Nat
  | .core => 1
  | .cluster => 2
  | .die => 3
  | .module => 4
  | .pod => 5

/-- The words e0 and e1 of a wait-list entry (R99). -/
def WaitEntry.words (e : WaitEntry) : List Word :=
  let r := e.req
  let gen := if r.ctxid = 0xFFFFFFFF then 0 else if isReserved r.ctxid then Config.moduleNumber else r.gen.toNat
  [word (r.ctxid + 2 ^ 32 * gen + 2 ^ 44 * r.op + 2 ^ 51 * r.ret.toNat + 2 ^ 52 * Scope.code r.scope + 2 ^ 55 * r.eng),
   if r.op = 0x31 ∨ (r.op = 0x30 ∧ e.arrived ∧ r.ctxid ≠ 0xFFFFFFFF) then e.target else r.operand]

/-- The words t0 to t7 of a task record (R165). -/
def TaskRec.words (t : TaskRec) : List Word :=
  [word (t.pc.toNat + 2 ^ 57 * t.prio.toNat + 2 ^ 59 * t.pre.toNat + 2 ^ 60 * t.size.toNat), t.args[0], t.args[1], t.args[2], t.args[3],
   t.join.setWidth 64, t.tscale.setWidth 64,
   word (t.tfmt.toNat + 2 ^ 32 * t.domain.toNat + 2 ^ 48 * (t.packet % 4096) + 2 ^ 60 * t.twin.toNat)]

/-- The words of an inbox entry (R337), and one with its context number and its arrival sequence. -/
def Message.words (m : Message) : List Word := [m.w0, m.w1, m.w2, m.w3, word (m.dest % 4096 + 2 ^ 32 * m.seq)]

/-- A ready entry: its context id, its level, whether its image stands in the saggar, and its timebase (R159). -/
def ReadyEntry.words (e : ReadyEntry) (spilled : Bool) : List Word :=
  [word (e.gid + 2 ^ 32 * e.level.toNat + 2 ^ 34 * spilled.toNat), e.time]

/-- The command that a halted unit suspends: the running one, else the GMMA part in its part slot, begun or not (R330). -/
def MatrixUnit.suspended (m : MatrixUnit) : Option MxRun :=
  if !m.halted then none
  else if m.run.any fun r => r.waiting == 0 then m.run
  else if m.part.any fun p => p.waiting == 0 || p.waiting == 5 then m.part
  else none

/-- The words u0 and u1 of the unit record (R330, R335); u2 to u7 are 0. The queue's count leaves out a suspended command that holds one of
its entries. -/
def MatrixUnit.record (m : MatrixUnit) : List Word :=
  let held := match m.suspended with
    | none => 0
    | some r => if r.part then 0 else 1
  let u0 :=
    match m.suspended with
    | none => 0
    | some r =>
      r.cmd.seq.toNat + 2 ^ 32 * r.next + 2 ^ 44 + 2 ^ 45 * r.part.toNat + 2 ^ 46 * (if r.part then r.member else 0)
  [word (u0 + 2 ^ 50 * (m.used - held)), m.seq.setWidth 64, 0, 0, 0, 0, 0, 0]

/-- A word p0 to p31 of a partition descriptor (R129). -/
def Partition.wordAt (p : Partition) (k : Nat) : Word :=
  if k = 0 then p.clusters.setWidth 64
  else if k = 1 then (p.clusters >>> 64).setWidth 64
  else if k = 2 then word (p.wquota.toNat + 2 ^ 16 * p.squota.toNat + 2 ^ 32 * p.plimit.toNat)
  else if k = 3 then word (p.domBase.toNat + 2 ^ 16 * p.domCount.toNat + 2 ^ 32 * p.hdom.toNat)
  else if k ≤ 7 then (p.dq.toList.getD (k - 4) 0).setWidth 64
  else if k ≤ 23 then p.hrange.toList.getD (k - 8) 0
  else if k = 24 then word (p.sagQuota.toNat + 2 ^ 32 * p.enable.toNat)
  else if k = 25 then word (p.hwen.toNat + 2 ^ 12 * p.hwBase.toNat)
  else 0

/-- The code of a packet's state, in the order of R141's table. -/
def PacketState.code : PacketState → Nat
  | .verify => 0
  | .depend => 1
  | .timed => 2
  | .placing => 3
  | .running => 4
  | .complete => 5
  | .rejected => 6

/-- A word of a log's ring: the record with sequence number n stands in slot n mod the ring size (R383). -/
def Log.wordAt (l : Log) (ring words k : Nat) : Word :=
  let age := (l.seq + ring - 1 - k / words) % ring
  if age < l.records.length then ((l.records.getD age []).getD (k % words) 0) else 0

/-- The die on which a partition's logs lie: that of its lowest-numbered cluster (R70). -/
def Partition.logDie (p : Partition) : Nat := (p.clusterList.headD 0) / 64

/-- The regions of a die's saggar as the Assay divides it at reset, in R70's order: each with its first byte and its size. -/
def saggarRegions : List Word :=
  [word 0, word (160 * 2 ^ 20), word (160 * 2 ^ 20), word (20 * 2 ^ 20), word (180 * 2 ^ 20), word (24 * 2 ^ 20), word (204 * 2 ^ 20),
   word (1589 * 2 ^ 20)]

/-! Wait reasons (R374). -/

/-- The line slot of a channel in which a sector of its slice's home lines lies (R67, R70). -/
def State.lineSlotOf (s : State) (sl sec : Nat) : Nat :=
  s.globalPlace (sl / Config.slices) (64 * sec) / 256 % (Config.frameSlots * Config.lineSlots)

/-- A sector of a leased channel lies in the line that moves now (R428). -/
def State.lineMoving (s : State) (sl sec : Nat) : Bool := s.slotMoving sl (s.lineSlotOf sl sec)

/-- A line slot of a channel stands in the lease reserve (R428): each line that has moved out and has not moved back, and all those of a
channel that did not return. -/
def Slice.inReserve (x : Slice) (line : Nat) : Bool :=
  if x.movedOut then decide (x.moveNext ≤ line) else x.leased && decide (line < x.moveNext)

/-- The channel that holds a sector's line: its own, or one of the die's other 159, line by line in ascending order after it (R428). -/
def State.channelOf (s : State) (sl sec : Nat) : Nat :=
  let line := s.lineSlotOf sl sec
  if (s.slice sl).inReserve line then
    sl / Config.slices * Config.slices + (sl % Config.slices + 1 + line % (Config.slices - 1)) % Config.slices
  else sl

/-- A request of a slice is one of a context's. -/
def State.isRequestOf (s : State) (g : Nat) : SliceReq → Bool
  | .part id _ => s.accs.any fun a => a.id == id && a.gid == g
  | .ifill core sector => s.at g == core && (s.ctx g).fills.contains sector
  | _ => false

/-- A request of a context is held at a slice or channel because its line moves (R248, R428). -/
def State.heldByMove (s : State) (g : Nat) : Bool :=
  s.slices.any fun x => x.2.leased &&
    (x.2.moving.any (s.isRequestOf g) || x.2.chanQ.head?.any fun q => s.lineMoving x.1 q.1 && s.isRequestOf g q.2)

/-- The wait reason of a context that the census shows (R374): that of its wait, 11 while the line that it waits for moves. -/
def State.reasonOf (s : State) (g : Nat) : Nat :=
  let c := s.ctx g
  if c.st = .parked ∧ [1, 2, 9].contains c.wreason ∧ s.heldByMove g then 11 else c.wreason

/-- A source of the core can fill an empty slot (R158): the pair that it is reserved for, a Ready context, or the record at the bottom of
the deque. -/
def State.canFill (s : State) (core i : Nat) : Bool :=
  let k := s.core core
  (k.slot i).reserved.isSome || (s.firstReady core).isSome || k.deque.head?.any (s.canTake core)

/-- The wait reason of a slot: an empty one shows 7 while its core has no source that can fill it (R158). -/
def State.slotReason (s : State) (core i : Nat) : Nat :=
  match ((s.core core).slot i).occ with
  | some g => s.reasonOf g
  | none => if s.canFill core i then 0 else 7

/-! Object states. -/

/-- The typed sectors that some slices hold: their numbers, tags and bytes; a barrier's member sectors stand with their header (R80, R84,
R444). -/
def State.typedOn (s : State) (on : Nat → Bool) : List (Nat × Nat × List Byte) :=
  (s.tags.filter fun x => on (s.holderSlice x.1)).map fun x => (x.1, x.2, memBytes s.mem (64 * x.1) 64)

/-- The words in which the census shows a typed sector: its number and tag, then its eight words. -/
def typedWords (o : Nat × Nat × List Byte) : List Word :=
  word (o.1 + 2 ^ 48 * o.2.1) :: (List.range 8).map fun k => word (natOfBytes ((o.2.2.drop (8 * k)).take 8))

/-! The resources of the Assay, by number (R419). -/

/-- The resource number of the core at a position (0 to 8) of a cluster. -/
def corePosKey (cl pos : Nat) : Nat := 9 * cl + pos

/-- The resource number of a channel with its slice. -/
def channelKey (sl : Nat) : Nat := 2000 + sl

/-- The resource number of a link port. -/
def portKey (p : Nat) : Nat := 3000 + p

/-- The resource that serves a core's number (R423). -/
def State.coreKey (s : State) (core : Nat) : Nat :=
  corePosKey (clusterOf core) ((s.cluster (clusterOf core)).positions.getD (core % 8) (core % 8))

/-! Areas. -/

/-- An area of a census page: its bytes, and its words. -/
structure CensusArea where
  size : Nat
  word : Nat → Word

/-- An area that holds some words, as long as they are. -/
def CensusArea.ofWords (ws : List Word) : CensusArea := ⟨8 * ws.length, fun k => ws.getD k 0⟩

/-- An area as one sees it from whom its contents are hidden: zero (R456). -/
def CensusArea.shown (a : CensusArea) (b : Bool) : CensusArea := if b then a else { a with word := fun _ => 0 }

/-- The eight words of a vector register. -/
def vecWords (v : Vec) : List Word := (List.range 8).map fun k => v.extractLsb' (64 * k) 64

/-- What a slot holds of its occupant (R444): the PC, the registers, the control registers, TOUCH, the recorded cause and TWIN and LEASE
counts; all 0 in an empty slot. -/
def Ctx.slotWords (c : Ctx) : List Word :=
  c.pc :: c.s.toList ++ c.v.toList.flatMap vecWords ++ c.m.toList ++ c.snapshot.ctl ++
    [c.touch, word (c.rcause.toNat + 2 ^ 32 * c.wcount.toNat), c.rtval, word (c.rbk.toNat + 2 ^ 32 * c.moves.toNat)]

/-- The areas of a core's page, in R444's order: slot contexts, ready queue, deque, inbox, directory of the thread-context cache, PLB and
unit record; then the wait reason of every context, the counts of discarded messages and of dropped writes, and the core's number, apart
from the position (R340, R374, R385, R423). -/
def State.corePage (s : State) (core : Nat) : List CensusArea :=
  let k := s.core core
  let slot := fun i =>
    let occ := (k.slot i).occ
    word (occ.getD 0xFFFFFFFF + 2 ^ 32 * s.slotReason core i) ::
      (match occ with | some g => s.ctx g | none => Ctx.initial).slotWords
  [.ofWords ((List.range Config.slots).flatMap slot), .ofWords (k.ready.flatMap fun e => e.words (!k.tcc.contains e.gid)),
   .ofWords (k.deque.flatMap TaskRec.words), .ofWords (k.inbox.flatMap Message.words), .ofWords (k.tcc.map word),
   .ofWords ((List.range 64).map fun i => (mapGet k.plb i).getD 0), .ofWords k.mx.record,
   ⟨Config.contexts, fun w => word ((List.range 8).foldl (fun n i => n + 2 ^ (8 * i) * s.reasonOf (gidOf core (8 * w + i))) 0)⟩,
   .ofWords [word k.discarded, word k.dropped, word core]]

/-- The position of a wait-list entry in the spill ring of its slice; all ones in slice storage (R100, R456). -/
def WaitEntry.spillWord (e : WaitEntry) : Word := if e.spilled then word (e.seq % 65536) else 0xFFFFFFFFFFFFFFFF

/-- The areas of a slice's page for function v: the wait-list entries with their spill positions, every one to the PF and the supervisor, a
VF's own to it; the translation buffer, the walk queue, the error counts and the object states (R444, R456). -/
def State.slicePage (s : State) (v sl : Nat) : List CensusArea :=
  let x := s.slice sl
  let entry := fun (e : WaitEntry) => if v = 0 ∨ e.req.vf = v then e.words ++ [e.spillWord] else [0, 0, 0]
  [.ofWords (x.waits.flatMap entry),
   (CensusArea.ofWords (x.tlb.flatMap fun t => [word t.1, t.2])).shown (v == 0),
   (CensusArea.ofWords ((x.walks ++ x.walkQ).map word)).shown (v == 0),
   (CensusArea.ofWords [word x.corrected, word x.uncorrected, word x.dropped]).shown (v == 0),
   (CensusArea.ofWords ((s.typedOn fun ch => ch == sl).flatMap typedWords)).shown (v == 0)]

/-- A log with its sequence number: a ring as long as what has been written of it (R383). -/
def Log.areas (l : Log) (ring words : Nat) : List CensusArea :=
  [.ofWords [word l.seq], ⟨8 * words * Nat.min l.seq ring, fun k => l.wordAt ring words k⟩]

/-- The areas of one partition in a die's dispatcher area: its pending packets with their states, its descriptor, and its logs with
their sequence numbers, which lie on one die (R383, R444). -/
def State.partAreas (s : State) (die v : Nat) : List CensusArea :=
  let p := s.part v
  let packet := fun (q : Nat × Packet) => (List.range 16).map (fun k => q.2.words.getD k 0) ++ [word (q.1 + 2 ^ 12 * q.2.st.code)]
  [.ofWords (((s.die die).packets.filter fun q => q.2.vf == v).flatMap packet), ⟨256, fun k => p.wordAt k⟩] ++
    if p.logDie = die then p.rejLog.areas 1024 24 ++ p.trapLog.areas 4096 4 ++ p.killLog.areas 1024 8 else []

/-- A die's counts of network and bridge errors and of combining errors, whether the frames of its lease reserve are too few, and the hops
removed from use (R409, R428, R430). -/
def State.dieCounts (s : State) (die : Nat) : CensusArea :=
  let d := s.die die
  .ofWords ([word d.netErrs, word d.combErrs, word d.reserveLow.toNat] ++ (d.hops.filter fun h => h.2 == 8).map fun h => word h.1)

/-- The memory of a core that MOVE saved: its local memory, then its accumulators (R425, R426). -/
def SavedCore.area (e : SavedCore) : CensusArea :=
  ⟨327680, fun k =>
    if k < 32768 then word (natOfBytes (memBytes e.slab (slabPlace e.core (8 * k)) 8))
    else
      let cell := fun (i : Nat) => ((mapGet e.acc i).getD 0).toNat
      word (cell (2 * (k - 32768)) + 2 ^ 32 * cell (2 * (k - 32768) + 1))⟩

/-- The memories saved on a die. -/
def State.savedOn (s : State) (die : Nat) : List SavedCore := (List.range 64).flatMap fun i => (s.cluster (64 * die + i)).saved

/-- The areas of a die's dispatcher page for function v: every partition's to the PF and the supervisor, a VF's own to it (R456). The PF's
error log of refused ENABLEs, the saggar's regions, the die's error counts and the memories saved on it stand there too (R70, R130, R426,
R430). -/
def State.dispatcherPage (s : State) (v die : Nat) : List CensusArea :=
  ([CensusArea.ofWords [word s.pf.errlog], .ofWords saggarRegions, s.dieCounts die].map fun a => a.shown (v == 0)) ++
    ((List.range 64).flatMap fun i => (s.partAreas die (i + 1)).map fun a => a.shown (v == 0 || v == i + 1)) ++
    (s.savedOn die).map fun e => e.area.shown (v == 0)

/-- A number of n words as the census shows it, the lowest first. -/
def numWords (n x : Nat) : List Word := (List.range n).map fun k => word (x / 2 ^ (64 * k))

/-- The head of the chain of retirement records with its signatures: a digest of 384 bits, an RSA-3072 signature of 384 bytes and an
SLH-DSA-SHA2-192s signature of 16,224 (R433). -/
def Assay.headWords (a : Assay) : List Word :=
  numWords 6 (a.head.getD 0 0) ++ numWords 48 (a.head.getD 1 0) ++ numWords 2028 (a.head.getD 2 0)

/-- The areas of the module page of die 0: the lease log, the scores, the retirement records with the signed head, the attestation report,
and each port's width, lane group and CRC errors (R357, R409, R421, R430, R433, R444, R454). -/
def State.modulePage (s : State) : List CensusArea :=
  let a := s.assay
  a.leaseLog.areas 4096 4 ++
    [⟨8 * 4096, fun k => word ((mapGet a.scores k).getD 0)⟩, .ofWords a.retired.reverse.flatten, .ofWords a.headWords,
     ⟨a.report.length, fun k => word (natOfBytes ((a.report.drop (8 * k)).take 8))⟩,
     ⟨8 * 16, fun k => word ((s.port k).width + 2 ^ 8 * (s.port k).group + 2 ^ 16 * (s.port k).errs)⟩]

/-- The architectural core that a position of a cluster serves; the idle spare serves none (R423). -/
def Cluster.served (c : Cluster) (pos : Nat) : Option Nat := (List.range 8).find? fun k => c.positions.getD k 9 == pos

/-- A page of the census: its number, the first byte behind its registers, its end, and its areas. -/
structure CensusPage where
  no    : Nat
  first : Nat
  size  : Nat
  areas : List CensusArea

/-- The page that an offset lies in, as function v sees it. The idle spare of a cluster shows no core. -/
def State.pageOf (s : State) (v die off : Nat) : CensusPage :=
  if 0x100000 ≤ off ∧ off < 0x100000 + 0x10000 * 576 then
    let p := (off - 0x100000) / 0x10000
    let cl := 64 * die + p / 9
    ⟨1, 0x100010 + 0x10000 * p, 0xFFF0, match (s.cluster cl).served (p % 9) with | none => [] | some k => s.corePage (8 * cl + k)⟩
  else if 0x4000000 ≤ off ∧ off < 0x4000000 + 0x40000 * Config.slices then
    let h := (off - 0x4000000) / 0x40000
    ⟨2, 0x4000000 + 0x40000 * h, 0x40000, s.slicePage v (die * Config.slices + h)⟩
  else if 0x7000000 ≤ off ∧ off < 0x7800000 then ⟨3, 0x7000000, 0x800000, s.dispatcherPage v die⟩
  else if die = 0 ∧ 0x7802000 ≤ off then ⟨4, 0x7802000, 0x7FE000, s.modulePage.map fun a => a.shown (v == 0)⟩
  else ⟨0, 0, 0x10000, []⟩

/-- The area in which a byte of those that follow one another lies, and the byte's place in it. -/
def areaAt : List CensusArea → Nat → Option (CensusArea × Nat)
  | [], _ => none
  | a :: as, o => if o < a.size then some (a, o) else areaAt as (o - a.size)

/-- Where an offset lies among a page's areas. They follow one another, each as long as its present contents, from a place of the page that
is a constant of the device, and wrap at its end: the spec leaves places and lengths open. DESIGN CHOICE, notes/assumptions/25.md. -/
def CensusPage.place (p : CensusPage) (off : Nat) : Nat := (off - p.first + Config.censusPlace p.no) % p.size

/-- The byte of an area at an offset of the census, if one stands there. -/
def State.areaByte (s : State) (v die off : Nat) : Option Byte :=
  let p := s.pageOf v die off
  (areaAt p.areas (p.place off)).map fun x => (x.1.word (x.2 / 8)).extractLsb' (8 * (x.2 % 8)) 8

/-- The memory of a retired core that stands at an offset of the dispatcher page (R426). -/
def State.savedAt (s : State) (die off : Nat) : Option SavedCore :=
  let p := s.pageOf 0 die off
  let es := s.savedOn die
  if p.no ≠ 3 then none
  else
    let lo := ((p.areas.take (p.areas.length - es.length)).map (·.size)).sum
    if p.place off < lo then none else es[(p.place off - lo) / 327680]?

/-- The state as a die's snapshot shows it: its slices, its cores and contexts with the positions that serve them, and the object states,
as they were copied (R448). -/
def State.asSnapshot (s : State) (die : Nat) : State :=
  match (s.die die).snapshot with
  | none => s
  | some x =>
    { s with
      slices := x.slices
      cores := x.cores
      ctxs := x.ctxs
      clusters := x.clusters
      tags := (x.objects.map fun o => (o.1, o.2.1)) ++ s.tags.filter fun t => sectorSlice t.1 / Config.slices != die
      mem := x.objects.foldl (fun m o => memWrite m (64 * o.1) o.2.2) s.mem }

/-- The partition in service on a cluster when a census read's state was copied: now, or for a snapshot when it was taken (R447, R456). -/
def State.censusOwner (s : State) (v cl : Nat) (snap : Bool) : Bool :=
  if snap then (s.die (cl / 64)).snapshot.any fun x => x.owners.contains (cl, v)
  else (s.part v).enable && (s.part v).clusters.getLsbD cl && !(s.part v).inShadow

end Sys2Proof.Machine
end

