-- ==== Sys2Proof/Machine/Census.lean ====
section
/-!
DEFINITION. The control window and the census: what a read returns, and the steps that a register's write starts
(spec/23_retirement_and_recovery.md R443 to R448, spec/05_launch.md R129, R130, R136, spec/03_address_space.md R74,
spec/10_memory.md R250, spec/18_traps_and_preemption.md R385, R386).
-/
namespace Sys2Proof.Machine

/-! Reading. -/

/-- A DONE bit at [63]. -/
def doneBit (b : Bool) : Nat := if b then 2 ^ 63 else 0

/-- A listener register (R427). -/
def Partition.listenWord (p : Partition) (n : Nat) : Word := (p.listen.toList.getD n 0).setWidth 64

/-- A register of a die's census space by its offset, where the spec gives its place (R445, R446). -/
def State.censusWord (s : State) (die off : Nat) : Option Word :=
  let d := s.die die
  match off with
  | 0x00 => some (d.framebase.setWidth 64)
  | 0x08 => some (d.frames.setWidth 64)
  | 0x10 => some (word (d.tlbPage.toNat + doneBit d.tlbDone))
  | 0x18 => some (word (256 * d.rdcBase.toNat))
  | 0x20 => some (word (d.rdcLen.toNat + doneBit d.rdcDone))
  | 0x28 => some (word (d.domDom.toNat + 2 ^ 16 * d.domGen.toNat + doneBit d.domDone))
  | 0x30 => some (word (2 * d.snapDone.toNat + 2 ^ 32 * d.snapSeq.toNat))
  | 0x40 => some (word d.sync.toNat)
  | 0x48 => some (d.uvMargin.setWidth 64)
  | _ =>
    if 0x100000 ≤ off ∧ off < 0x100000 + 0x10000 * 576 ∧ off % 0x10000 = 0 then
      let p := (off - 0x100000) / 0x10000
      let cl := 64 * die + p / 9
      some (match (s.cluster cl).served (p % 9) with
        | some k => (s.core (8 * cl + k)).svec.setWidth 64
        | none => (s.cluster cl).spareSvec.setWidth 64)
    else if die = 0 ∧ off = 0x7800000 then some s.assay.hbeat
    else if die = 0 ∧ 0x7801000 ≤ off ∧ off < 0x7801000 + 64 * 64 then
      let x := off - 0x7801000
      some ((s.part (x / 64 + 1)).listenWord (x % 64 / 8))
    else none

/-- A byte of the census as a state shows it, to function v: of a register, or of a record of an area; none where the spec gives the
byte no value (R444). -/
def State.censusShows (s : State) (v die off : Nat) : Option Byte :=
  match s.censusWord die (off / 8 * 8) with
  | some w => some (w.extractLsb' (8 * (off % 8)) 8)
  | none => s.areaByte v die off

/-- A byte of the census, live or, from bit [27] on, of the latest snapshot; where the spec gives it no value, a free one (R444, R448;
notes/assumptions/25.md). -/
def State.censusByte (s : State) (v die off : Nat) : Byte × State :=
  match if off < 2 ^ 27 then s.censusShows v die off else (s.asSnapshot die).censusShows v die (off % 2 ^ 27) with
  | some b => (b, s)
  | none => let f := s.freeNat; (BitVec.ofNat 8 f.1, f.2)

/-- The bytes of the census at some offsets. -/
def State.censusRead (s : State) (die : Nat) : List Nat → List Byte × State
  | [] => ([], s)
  | off :: offs =>
    let b := s.censusByte 0 die off
    let r := b.2.censusRead die offs
    (b.1 :: r.1, r.2)

/-! Writing. -/

/-- A register write of 8 bytes reaches its step: who is the die, or 2 plus the function whose control page it is. -/
def State.postRegister (s : State) (who off : Nat) (val : Word) (w : Writer) : State :=
  let go := fun ev => s.post 0 ev who off val.toNat (.write w)
  if who < 2 then
    match off with
    | 0x10 => go .tlbinvWrite
    | 0x20 => go .rdclenWrite
    | 0x28 => go .domgenWrite
    | 0x30 => if val.getLsbD 0 then go .snapctlGo else s
    | 0x38 => go .timesetWrite
    | _ => if 0x100000 ≤ off ∧ off < 0x100000 + 0x10000 * 576 ∧ off % 0x10000 = 8 then
             (if val.getLsbD 63 then go .resumeGo else s) else go .registerWrite
  else if off = 8 then go .errcntClear
  else if who ≠ 2 then go .registerWrite
  else if off = 0x10 then
    let s := go .registerWrite
    let s := if val.getLsbD 16 then s.post 0 .swapctlHalt 2 off val.toNat else s
    if val.getLsbD 17 then s.post 0 .swapctlGo 2 off val.toNat else s
  else if off = 0x18 then go .nouvWrite
  else if off = 0x28 then go .purge
  else if 0x100 ≤ off ∧ off < 0x4100 ∧ off % 0x100 = 0xC0 then
    if val.getLsbD 32 then go .partitionEnable
    else if (s.part (off / 0x100)).enable then go .partitionDisable else go .registerWrite
  else go .registerWrite

/-- Some bytes of a word replaced. -/
def mergeBytes (old : Word) (ps : List (Nat × Byte)) : Word :=
  word (natOfBytes ((List.range 8).map fun i => ((ps.reverse.find? fun x => x.1 == i).map (·.2)).getD (old.extractLsb' (8 * i) 8)))

/-- A store of bytes at offsets of the live census: each register that one lies in is written, its other bytes keep their values
(R445). -/
def State.censusStore (s : State) (die : Nat) (ps : List (Nat × Byte)) (vf : Nat) : State :=
  let ps := ps.filter fun x => decide (x.1 < 2 ^ 27)
  (ps.map fun x => x.1 / 8).eraseDups.foldl (fun s k =>
    let mine := (ps.filter fun x => x.1 / 8 == k).map fun x => (x.1 % 8, x.2)
    s.postRegister die (8 * k) (mergeBytes ((s.censusWord die (8 * k)).getD 0) mine) (.supervisor vf)) s

/-- A function's error count advances (R128, R136, R378). -/
def State.countErr (s : State) (fn : Nat) : State := s.modFunc fn fun f => { f with errcnt := f.errcnt + 1 }

/-- The writer named by a step's argument. -/
def EvArg.writer (a : EvArg) : Writer :=
  match a.ext with
  | .write w => w
  | _ => .pf

/-- The queued walk of a page is withdrawn, and what was merged with it waits for the drop (R74). -/
def Slice.withdrawWalk (x : Slice) (page : Nat) : Slice :=
  if !x.walkQ.contains page then x
  else
    { x with
      walkQ := x.walkQ.filter fun p => p != page
      withdrawn := x.withdrawn ++ (x.merged.filter fun m => m.1 == page).map (·.2)
      merged := x.merged.filter fun m => m.1 != page }

/-- What a withdrawn walk had merged walks again: a slice's own requests from the head of its input queue, an object's by its port. -/
def State.walkAgain (s : State) (sl : Nat) : State :=
  let rs := (s.slice sl).withdrawn
  let s := s.modSlice sl fun x =>
    { x with
      withdrawn := []
      inQ := (rs.filter fun r => match r with | .part _ _ | .ifill _ _ => true | _ => false) ++ x.inQ }
  (rs.foldl (fun s r => match r with | .visit (p + 1) => s.postSoon 0 .objectRequestArrival p | _ => s) s).postOnce 1 .sliceDataServe sl

/-- TLBINV is written: the page's queued walks are withdrawn, and every translation buffer of the die drops it within 300 cycles,
once no walk of it is in flight (R74, R445). A write while DONE is 0 is ignored. -/
def execTlbinvWrite (s : State) : Host.Outcome State Fault Refusal :=
  let die := s.arg.who
  if !(s.die die).tlbDone then .next s
  else
    let page := s.arg.val % 2 ^ 20
    let s := s.modDie die fun d => { d with tlbPage := BitVec.ofNat 20 page, tlbDone := false }
    let s := s.mapSlices die fun x => x.withdrawWalk page
    let t := s.freeRange 1 300
    .next (t.2.post t.1 .tlbinvDone die)

/-- TLBINV's drop is complete (R74). The withdrawn requests walk again. -/
def execTlbinvDone (s : State) : Host.Outcome State Fault Refusal :=
  let die := s.arg.who
  let d := s.die die
  let page := d.tlbPage.toNat
  if d.tlbDone then .next s
  else if s.slices.any fun x => x.1 / Config.slices == die && x.2.walks.contains page then .next (s.post 16 .tlbinvDone die)
  else
    let s := s.modDie die fun d => { d with tlbDone := true }
    let ids := (s.slices.filter fun x => x.1 / Config.slices == die).map (·.1)
    let s := s.mapSlices die fun x => { x with tlb := x.tlb.filter fun t => t.1 != page, absent := [] }
    .next (ids.foldl State.walkAgain s)

/-- RDCLEN is written: the removal of the range that begins at RDCBASE as it stands now works through it at one line per bank per cycle
(R250). -/
def execRdclenWrite (s : State) : Host.Outcome State Fault Refusal :=
  let die := s.arg.who
  if !(s.die die).rdcDone then .next s
  else
    let len := s.arg.val % 2 ^ 40
    let s := s.modDie die fun d => { d with rdcLen := BitVec.ofNat 40 len, rdcDone := false, rdcFrom := d.rdcBase }
    .next (s.post ((len + 255) / 256 / 32 + 1) .rdcRemovalDone die)

/-- The range is removed: later loads of it are served from the home, and fills that left before are not installed (R250). -/
def execRdcRemovalDone (s : State) : Host.Outcome State Fault Refusal :=
  let die := s.arg.who
  let d := s.die die
  if d.rdcDone then .next s
  else
    let lo := 256 * d.rdcFrom.toNat
    let hi := lo + (d.rdcLen.toNat + 255) / 256 * 256
    let s := s.mapAccs fun a => if dieOfCore a.core = die then { a with noRdc := (lo, hi) :: a.noRdc } else a
    .next (s.modDie die fun d =>
      { d with rdcDone := true, rdc := d.rdc.filter fun x => decide (x.addr < lo) || decide (hi ≤ x.addr) })

/-- DOMGEN is written: the domain's generation advances, and within 300 cycles every bank and slice of the die drops older
writes of it (R385, R445). -/
def execDomgenWrite (s : State) : Host.Outcome State Fault Refusal :=
  let die := s.arg.who
  if !(s.die die).domDone then .next s
  else
    let dom := BitVec.ofNat 16 s.arg.val
    let gen := s.domGenOf die dom + 1
    let s := s.modDie die fun d =>
      { d with domDom := dom, domGen := gen, domDone := false, domGens := mapSet d.domGens dom.toNat gen }
    let t := s.freeRange 1 300
    .next (t.2.post t.1 .domgenDone die)

/-- DOMGEN is done (R385). -/
def execDomgenDone (s : State) : Host.Outcome State Fault Refusal :=
  .next (s.modDie s.arg.who fun d =>
    if d.domDone then d else { d with domDone := true, fences := mapSet d.fences d.domDom.toNat d.domGen })

/-- SNAPCTL.GO is written: a snapshot of the die is taken (R448). -/
def execSnapctlGo (s : State) : Host.Outcome State Fault Refusal :=
  let die := s.arg.who
  if !(s.die die).snapDone then .next s
  else
    let t := (s.modDie die fun d => { d with snapDone := false }).freeRange 1 4096
    .next (t.2.post t.1 .snapshotDone die)

/-- Each slice and each core has copied its state, at one cycle of its own (R448). DESIGN CHOICE, notes/assumptions/25.md. -/
def execSnapshotDone (s : State) : Host.Outcome State Fault Refusal :=
  let die := s.arg.who
  if (s.die die).snapDone then .next s
  else
    let cls := s.clusters.filter fun x => x.1 / 64 == die
    let owners := s.parts.flatMap fun p =>
      ((p.2.clusterList.filter fun c => c / 64 == die && s.censusOwner p.1 c false).map fun c => (c, p.1))
    let snap : Snapshot :=
      ⟨s.slices.filter fun x => x.1 / Config.slices == die, s.cores.filter fun x => x.1 / 512 == die,
        s.ctxs.filter fun x => dieOfCore (x.2.at x.1) == die, cls, owners, s.typedOn fun ch => ch / Config.slices == die⟩
    .next (s.modDie die fun d => { d with snapDone := true, snapSeq := d.snapSeq + 1, snapshot := some snap })

/-- Everything that waits for a time of a die whose timebase changed is looked at again: deadlines of WAITTs, packets in TIMED, and grace
deadlines (R141, R176, R425). -/
def State.reDeadline (s : State) (die : Nat) : State :=
  let s := (s.ctxs.filter fun x => dieOfCore (x.2.at x.1) == die).foldl (fun s x =>
    match x.2.wait with
    | .waitt d => s.postDeadline x.1 d
    | _ => s) s
  let s := (s.die die).packets.foldl (fun s p =>
    if p.2.st = .timed then s.postSoon (s.cyclesUntil die (p.2.words.getD 12 0)) .notbeforeReached die p.1 else s) s
  (s.assay.leases.filter fun l => dieOfCore l.ident == die).foldl State.postGrace s

/-- TIMESET: the PF's first write after reset sets the die's timebase; any other write counts in the PF's ERRCNT, whoever made it
(R146, R445; DEDUCED, notes/assumptions/30.md). -/
def execTimesetWrite (s : State) : Host.Outcome State Fault Refusal :=
  let die := s.arg.who
  let w := s.arg.writer
  if w = .pf ∧ !(s.die die).timeSet then
    .next (((s.modDie die fun d => { d with timeSet := true }).setTime die (word s.arg.val) 0).reDeadline die)
  else .next (s.countErr 0)

/-- A word of a partition descriptor other than p24 (R129); the reserved bits of a host range, laid out as a PLB entry, stay 0 (R76). -/
def Partition.setWord (p : Partition) (k : Nat) (x : Word) : Partition :=
  match k with
  | 0 => { p with clusters := (p.clusters >>> 64 <<< 64) ||| x.setWidth 128 }
  | 1 => { p with clusters := (p.clusters.setWidth 64).setWidth 128 ||| (x.setWidth 128 <<< 64) }
  | 2 => { p with wquota := x.setWidth 13, squota := BitVec.ofNat 16 (bits x 31 16), plimit := BitVec.ofNat 16 (bits x 47 32) }
  | 3 => { p with domBase := x.setWidth 16, domCount := BitVec.ofNat 16 (bits x 31 16), hdom := BitVec.ofNat 16 (bits x 47 32) }
  | 25 => { p with hwen := x.getLsbD 0, hwBase := BitVec.ofNat 52 (bits x 63 12) }
  | _ =>
    if 4 ≤ k ∧ k ≤ 7 then { p with dq := p.dq.setIfInBounds (k - 4) (x.setWidth 57) }
    else if 8 ≤ k ∧ k ≤ 23 then { p with hrange := p.hrange.setIfInBounds (k - 8) (x &&& 0x7FFFFFFFFFFF01FF) } else p

/-- A register of the PF's control page (R129, R378, R455). -/
def State.writePf (s : State) (off : Nat) (x : Word) : State :=
  if off = 0x10 then
    { s with pf := { s.pf with out := x.setWidth 7, inn := BitVec.ofNat 7 (bits x 13 7) } }
  else if off = 0x30 then
    if bits x 5 0 ≤ 12 then { s with pf := { s.pf with clkcap := x.setWidth 6 } }.post 0 .clockStep 0 else s
  else if 0x8000 ≤ off ∧ off < 0xA000 then s.postRegister ((off - 0x8000) / 0x1000) (off % 0x1000) x .pf
  else if 0x100 ≤ off ∧ off < 0x4100 then
    let v := off / 0x100
    if (s.part v).enable then s
    else if off % 0x100 = 0xC0 then s.modPart v fun p => { p with sagQuota := x.setWidth 32 }
    else s.modPart v fun p => p.setWord (off % 0x100 / 8) x
  else s

/-- A supervisor's write to the saved memory of a retired core releases it (R426). The spec names no other means.
DESIGN CHOICE, notes/assumptions/46.md. -/
def State.releaseSaved (s : State) (die off : Nat) : State :=
  match s.savedAt die off with
  | none => s
  | some e =>
    if s.arg.writer = .supervisor e.vf ∧ s.assay.gone.contains (s.coreKey e.core) then
      s.modCluster (clusterOf e.core) fun x => { x with saved := x.saved.filter fun y => y.core != e.core }
    else s

/-- REGISTER_WRITE: a control-window or control-page register whose write only sets its RW fields; RO fields and reserved bits
ignore it (R5, R445 to R447). -/
def execRegisterWrite (s : State) : Host.Outcome State Fault Refusal :=
  let who := s.arg.who
  let off := s.arg.what
  let x := word s.arg.val
  if who < 2 then
    if off = 0 then .next (s.modDie who fun d => { d with framebase := x.setWidth 14 })
    else if off = 0x18 then .next (s.modDie who fun d => { d with rdcBase := BitVec.ofNat 49 (bits x 56 8) })
    else if 0x100000 ≤ off ∧ off < 0x100000 + 0x10000 * 576 ∧ off % 0x10000 = 0 then
      let p := (off - 0x100000) / 0x10000
      let cl := 64 * who + p / 9
      match (s.cluster cl).served (p % 9) with
      | none => .next (s.modCluster cl fun c => { c with spareSvec := vectorBase x })
      | some k => .next (s.modCore (8 * cl + k) fun c => { c with svec := vectorBase x })
    else if who = 0 ∧ 0x7801000 ≤ off ∧ off < 0x7801000 + 64 * 64 then
      let v := (off - 0x7801000) / 64 + 1
      if s.arg.writer = .supervisor v then
        .next (s.modPart v fun p => { p with listen := p.listen.setIfInBounds (off % 64 / 8) (x.setWidth 35) })
      else .next s
    else .next (s.releaseSaved who off)
  else
    let fn := who - 2
    if off = 0 then
      .next (s.modFunc fn fun f => { f with apEn := x.getLsbD 0, apBase := BitVec.ofNat 21 (bits x 56 36) })
    else if fn = 0 then .next (s.writePf off x)
    else .next s

/-- ERRCNT is a W1C count: the bits written as 1 become 0 (R5, R136). -/
def execErrcntClear (s : State) : Host.Outcome State Fault Refusal :=
  .next (s.modFunc (s.arg.who - 2) fun f => { f with errcnt := f.errcnt &&& ~~~(BitVec.ofNat 32 s.arg.val) })

/-- RESUME: the HALT of a context ends (R386, R446). -/
def execResumeGo (s : State) : Host.Outcome State Fault Refusal :=
  let p := (s.arg.what - 0x100000) / 0x10000
  let cl := 64 * s.arg.who + p / 9
  match (s.cluster cl).served (p % 9) with
  | none => .next s
  | some k =>
    let g := gidOf (8 * cl + k) (s.arg.val % 4096)
    if (s.ctx g).wait = .halted false then .next (s.awaken g) else .next s

/-! Partitions. -/

/-- The four sectors' place of a global address of this module; none outside it. -/
def State.placeOf (s : State) (a : Word) : Nat := s.globalPlace (bits a 45 45) (bits a 44 0)

/-- A dispatch queue address names a bounded-queue header with 256-byte entries on this module (R130). -/
def State.isDispatchQueue (s : State) (a : Word) : Bool :=
  bits a 63 46 == Config.moduleNumber && a.toNat % 64 == 0 && s.tag (s.placeOf a / 64) == 5
    && natOfBytes (memBytes s.mem (s.placeOf a + 8) 8) / 2 ^ 32 % 8 == 4

/-- A partition's fields lie in their ranges, its clusters come in kilns, and its dispatch queues are queues (R129, R130).
DEDUCED, notes/assumptions/33.md. -/
def State.partitionOk (s : State) (v : Nat) (p : Partition) : Bool :=
  let others := s.parts.filter fun x => x.1 != v && x.2.enable
  let die := fun (q : Partition) (d : Nat) => q.clusterList.any fun c => c / 64 == d
  decide (1 ≤ v) && decide (v ≤ 64) && decide (p.wquota.toNat ≤ 4096) && decide (1 ≤ p.plimit.toNat) && decide (p.plimit.toNat ≤ 4096)
    && decide (1 ≤ p.domCount.toNat) && decide (p.domBase.toNat + p.domCount.toNat ≤ 65536)
    && (List.range 64).all (fun k => p.clusters.getLsbD (2 * k) == p.clusters.getLsbD (2 * k + 1))
    && others.all (fun x => x.2.clusters &&& p.clusters == 0)
    && others.all (fun x => decide (x.2.domBase.toNat + x.2.domCount.toNat ≤ p.domBase.toNat)
        || decide (p.domBase.toNat + p.domCount.toNat ≤ x.2.domBase.toNat))
    && p.dq.toList.all (fun a => a == 0 || s.isDispatchQueue (a.setWidth 64))
    && [0, 1].all fun d => !die p d ||
        decide (p.sagQuota.toNat + ((others.filter fun x => die x.2 d).map fun x => x.2.sagQuota.toNat).sum ≤ 1589)

/-- PARTITION_ENABLE: p24 is written with ENABLE 1; it stays 0 with an error logged where R130 or R70 forbids it. SAGQUOTA is stored all
the same, as the write of a field of a descriptor whose ENABLE is 0. DESIGN CHOICE, notes/assumptions/65.md. -/
def execPartitionEnable (s : State) : Host.Outcome State Fault Refusal :=
  let v := s.arg.what / 0x100
  if (s.part v).enable then .next s
  else
    let p := { s.part v with sagQuota := BitVec.ofNat 32 s.arg.val }
    let dead := p.clusterList.any fun c => (s.die (c / 64)).bootFail
    if s.partitionOk v p ∧ !p.inShadow ∧ !dead then
      let s := s.modPart v fun _ => { p with enable := true, disabling := false }
      .next ((s.postOnce 8 .dispatcherTake 0).postOnce 8 .dispatcherTake 1)
    else .next { s.modPart v (fun _ => p) with pf := { s.pf with errlog := s.pf.errlog + 1 } }

/-- PARTITION_DISABLE: ENABLE is cleared once the partition holds no context and no pending packet (R129). -/
def execPartitionDisable (s : State) : Host.Outcome State Fault Refusal :=
  let v := s.arg.what / 0x100
  if (s.part v).enable then .next ((s.modPart v fun p => { p with disabling := true }).postOnce 0 .enableClearEffect v)
  else .next s

/-- The partition holds no context, wherever it waits, and no pending packet. -/
def State.partitionIdle (s : State) (v : Nat) : Bool :=
  (s.ctxs.all fun x => decide (x.2.st = .free) || s.partOfCtx x.1 != some v)
    && s.dies.all fun d => d.2.packets.all fun q => q.2.vf != v

/-- ENABLE_CLEAR_EFFECT: the clearing takes effect, or is looked for again 64 cycles later (R129). DESIGN CHOICE,
notes/assumptions/4.md. -/
def execEnableClearEffect (s : State) : Host.Outcome State Fault Refusal :=
  let v := s.arg.who
  if !(s.part v).disabling then .next s
  else if s.partitionIdle v then .next (s.modPart v fun p => { p with enable := false, disabling := false })
  else .next (s.post 64 .enableClearEffect v)

end Sys2Proof.Machine
end

