-- ==== Sys2Proof/Machine/MemSys.lean ====
section
/-!
DEFINITION. The memory system's steps: acceptance, bank grants, the slices' data ports, walks, channels and fills, and the host
window's completions (spec/10_memory.md R240 to R249, spec/03_address_space.md R66 to R74, spec/12_copy_and_bank_units.md R284 to
R290, spec/13_consistency.md R295 to R297, spec/05_launch.md R137).
-/
namespace Sys2Proof.Machine

/-! Reading and writing bytes at a place. -/

/-- The whole sector that holds a place. -/
def State.sectorAt (s : State) (place : Nat) : BitVec 512 := BitVec.ofNat 512 (natOfBytes (memBytes s.mem (place / 64 * 64) 64))

/-! Parts of an access. -/

/-- A part of an access changed. -/
def State.modPartOf (s : State) (id k : Nat) (f : Part → Part) : State :=
  s.modAcc id fun a => { a with parts := ((List.range a.parts.length).zip a.parts).map fun x => if x.1 = k then f x.2 else x.2 }

/-- A part of an access. -/
def State.partAt (s : State) (id k : Nat) : Option (Access × Part) :=
  match s.acc id with
  | none => none
  | some a => (a.parts[k]?).map fun p => (a, p)

/-- A slice's data port serves from the first cycle at which it is free. -/
def State.pokeSlice (s : State) (sl : Nat) : State := s.postOnce ((s.slice sl).dataAt - s.cycle) .sliceDataServe sl

/-- A slice has served every access of a context that it has accepted (R254). -/
def State.sliceServed (s : State) (g sl : Nat) : Bool :=
  s.accs.all fun a => a.gid != g || a.parts.all fun p =>
    match p.tgt with
    | .slice x _ => x != sl || decide (p.stage = .sent) || (decide (p.stage = .served) && !p.waits)
    | _ => true

/-- The echo of a slice's probe goes back on the path by which it came (R245, R254). -/
def State.sliceEcho (s : State) (g sl : Nat) : State :=
  s.post (pathTime (s.at g) sl - pathTime (s.at g) sl / 2) .probeEcho g (sliceProbe sl) 0

/-- The probes that wait at a slice are echoed once the accesses before them have been served (R254). -/
def State.echoProbers (s : State) (sl : Nat) : State :=
  let go := (s.slice sl).probers.filter fun g => s.sliceServed g sl
  go.foldl (fun s g => s.sliceEcho g sl)
    (if go = [] then s else s.modSlice sl fun x => { x with probers := x.probers.filter fun g => !go.contains g })

/-- What a slice held back behind a request of an access may go on: requests, and probes. -/
def State.afterSlice (s : State) (t : Target) : State :=
  match t with
  | .slice sl _ => (s.pokeSlice sl).echoProbers sl
  | _ => s

/-- A part is served, its own time counted to a cycle: the sector that it brings reaches L1 then; a store whose last request that could
be refused this was takes effect; and the access ends when it was the last (R78, R83, R244). -/
def State.servePart (s : State) (id k done : Nat) (f : Part → Part) : State :=
  let s := s.modPartOf id k fun p => { f p with stage := .served, done := done }
  match s.partAt id k with
  | none => s
  | some (a, p) =>
    let s := (s.postFill id k p).applyStore id
    let ts := if a.whole then a.parts.map (·.tgt) else [p.tgt]
    (ts.foldl State.afterSlice s).settle id

/-- The causes that are recorded for the context of an access when their report reaches its slot: an OBJ_STORE of a store that does not
park, a relaxed access's TRANSLATION, a bank command's failure (R78, R83, R190, R289). -/
def Access.reports (a : Access) (cause : Nat) : Bool :=
  decide (a.kind = .bankCmd) || (!a.parks && decide (cause = Cause.objStore)) || (a.relaxed && decide (cause = Cause.translation))

/-- The way back of a report from a request's target, which no echo of a probe overtakes (R245, R263). -/
def Access.reportTime (a : Access) (p : Part) : Nat :=
  let own := p.lat - arriveAfter p.tgt p.lat
  match p.tgt with
  | .slice sl _ => Nat.min own (pathTime a.core sl - pathTime a.core sl / 2)
  | _ => own

/-- A failure that the target of one of an access's requests finds: of several, the one lowest in the access's data stands (R260); a
cause that is to be recorded travels to the slot as a report of its own (R190, R263). -/
def State.failPart (s : State) (a : Access) (k : Nat) (p : Part) (cause : Nat) : State :=
  let at_ := (p.bytes.headD (0, 0)).2
  match s.acc a.id with
  | none => s
  | some b =>
    let s := if b.fault.isSome && decide (b.faultAt ≤ at_) then s
             else s.modAcc a.id fun x => { x with fault := some (cause, p.addr), faultAt := at_ }
    if b.reports cause then
      s.post (b.reportTime p) (if b.kind = .store ∨ b.kind = .bankCmd then .storeAck else .loadDataReturn) b.id (k + 1) cause
    else s

/-- The place of a byte of a part: of a bank, or of the slice's die under a page entry. -/
def Part.place (p : Part) (entry : Word) (b : Nat) : Nat :=
  match p.tgt with
  | .bank k _ _ => slabPlace k b
  | .slice sl _ => framePlace (sl / Config.slices) b (bits entry 29 16)
  | _ => b

/-- The places of the bytes a part touches. -/
def Part.placesAt (p : Part) (entry : Word) : List Nat := p.bytes.map fun b => p.place entry b.1

/-- A part's load or store takes effect at its target (R295): what it reads, or the store unless the domain's generation fences
it (R385) or a typed sector refuses it (R83). A store that is refused as a whole takes effect when its last request is served, its
rows in banks then or not at all (R78, R83). -/
def State.effectPart (s : State) (a : Access) (k : Nat) (p : Part) (entry : Word) (die : Nat) : State :=
  let ps := p.placesAt entry
  match a.kind with
  | .store =>
    if s.fenced die a.domain a.domGen then
      match p.tgt with
      | .bank c _ _ => s.modCore c fun x => { x with dropped := x.dropped + 1 }
      | .slice sl _ => s.modSlice sl fun x => { x with dropped := x.dropped + 1 }
      | _ => s
    else if ps.any fun x => s.tag (x / 64) != 0 then s.failPart a k p Cause.objStore
    else if a.whole && p.judged then s.modPartOf a.id k fun p => { p with places := ps }
    else if a.whole && a.fault.isSome then s
    else s.writePlaces (ps.zip p.data)
  | .bankCmd => s
  | _ =>
    if ps.any fun x => s.poison.contains (x / 64) then s.failPart a k p Cause.parityKill
    else s.modPartOf a.id k fun p => { p with data := ps.map fun x => memGet s.mem x }

/-! Acceptance (R254, R297). -/

/-- Two requests go to one bank, or to one slice. -/
def sameTarget (a b : Target) : Bool :=
  match a, b with
  | .bank c i _, .bank d j _ => c == d && i == j
  | .slice x _, .slice y _ => x == y
  | _, _ => false

/-- An access that must come before another of the same core: an earlier one of the same context (R297), or, of two on the hashed path,
the one that left first (R245, R306). -/
def Access.before (b a : Access) : Bool :=
  (decide (b.id < a.id) && b.gid == a.gid && b.gen == a.gen)
    || (b.seq != 0 && decide (b.seq < a.seq) && b.core == a.core && !b.relaxed && !a.relaxed)

/-- A request waits before its bank: behind an earlier access's request to it that is still under way, or held at its source by a full
queue (R241, R245, R297), or while another request of its store may still be refused (R78). -/
def State.mustWait (s : State) (a : Access) (t : Target) : Bool :=
  (match t with | .bank _ _ _ => true | _ => false) &&
    ((a.whole && !a.allJudged) ||
      s.accs.any fun b => b.before a && b.parts.any fun p => decide (p.stage = .sent) && sameTarget p.tgt t)

/-- A bank looks for a grant in the first cycle in which it may serve one (R240). -/
def State.pokeBank (s : State) (core bank : Nat) : State :=
  s.postOnce (((s.core core).bank bank).nextAt - s.cycle) .bankGrant (core * 8 + bank)

/-- The consequences of an acceptance: a relaxed write's entries are free once every request is accepted, and a release that
waits for acceptance goes on (R193, R254). -/
def State.afterAccept (s : State) (id : Nat) : State :=
  match s.acc id with
  | none => s
  | some a =>
    let all := a.parts.all fun p => decide (p.stage ≠ .sent)
    let s := if all && a.relaxed && a.entry && (decide (a.kind = .store) || decide (a.kind = .bankCmd)) then
        (s.modAcc id fun x => { x with entry := false }).freeEntry a
      else s
    if all then (s.advanceRelease a.gid).lookDrain a.gid else s

/-- The host writes of a posted store reach the host (R137). -/
def State.hostWrite (s : State) (addr : Nat) (data : List Byte) : State := { s with hostMem := memWrite s.hostMem addr data }

/-- The host bus address of a host-window offset, for a core (R137). -/
def State.hostAddr (s : State) (core off : Nat) : Nat := (s.part ((s.partOfCore core).getD 0)).hwBase.toNat * 4096 + off

/-- ACCESS_ACCEPTED: a request reaches its target's queue, a bank's in its issue sequence (R241, R254, R289, R297); one that finds the
bank's queue full is held at its source, and another core's to a core in hand-over at the crossbar (R423). -/
def execAccessAccepted (s : State) : Host.Outcome State Fault Refusal :=
  let id := s.arg.who
  let k := s.arg.what
  match s.partAt id k with
  | none => .next s
  | some (a, p) =>
    if p.stage ≠ .sent then .next s
    else if s.mustWait a p.tgt then .next (s.post 1 .accessAccepted id k)
    else
      let ok := s.modPartOf id k fun p => { p with stage := .accepted }
      match p.tgt with
      | .bank c b _ =>
        let q := (s.core c).bank b
        if (s.cluster (clusterOf c)).leasedCore = some c ∧ a.core ≠ c then .next (s.post 64 .accessAccepted id k)
        else
        match a.bcmd with
        | some cmd =>
          if 4 ≤ q.cmdQ.length then .next (s.post 1 .accessAccepted id k)
          else .next (((ok.modCore c fun x => x.modBank b fun q => { q with cmdQ := q.cmdQ ++ [cmd] }).pokeBank c b).afterAccept id)
        | none =>
          if 16 ≤ q.accQ.length then .next (s.post 1 .accessAccepted id k)
          else .next (((ok.modCore c fun x => x.modBank b fun q => { q with accQ := q.accQ ++ [(id, k)] }).pokeBank c b).afterAccept id)
      | .slice sl _ =>
        .next (((ok.modSlice sl fun x => { x with inQ := x.inQ ++ [.part id k] }).pokeSlice sl).afterAccept id)
      | .away _ => .next (((ok.failPart a k p Cause.translation).servePart id k (p.left + p.lat) fun p => p).afterAccept id)
      | .census die =>
        match a.kind with
        | .store =>
          let ps := (p.bytes.map (·.1)).zip p.data
          .next (((ok.censusStore die ps ((s.partOfCore a.core).getD 0)).servePart id k (p.left + p.lat) fun p => p).afterAccept id)
        | _ =>
          let r := ok.censusRead die (p.bytes.map (·.1))
          .next ((r.2.servePart id k (p.left + p.lat) fun p => { p with data := r.1 }).afterAccept id)
      | .host =>
        match a.kind with
        | .store =>
          .next (((ok.hostWrite (s.hostAddr a.core (bits p.addr 39 0)) p.data).servePart id k (p.left + p.lat) fun p => p).afterAccept id)
        | _ => .next ((ok.post (p.left + p.lat - s.cycle) .hostWindowCompletion id k).afterAccept id)
      | .cached => .next s

/-- HOST_WINDOW_COMPLETION: the host's completion of a read: its bytes, which the host decides, or all ones with a count for an
error status (R137; notes/assumptions/5.md). -/
def execHostWindowCompletion (s : State) : Host.Outcome State Fault Refusal :=
  let id := s.arg.who
  let k := s.arg.what
  match s.partAt id k with
  | none => .next s
  | some (a, p) =>
    if p.stage ≠ .accepted then .next s
    else
      match s.arg.ext with
      | .bytes d bad =>
        let s := if bad then (s.countErr ((s.partOfCore a.core).getD 0)).modAcc id fun a => { a with allOnes := true } else s
        .next (s.servePart id k s.cycle fun p => { p with data := if bad then List.replicate a.size 0xFF else d })
      | _ =>
        let f := s.freeNat
        .next (f.2.servePart id k s.cycle fun p => { p with data := bytesOfNat a.size f.1 })

/-! Banks (R240 to R242, R284 to R290). -/

/-- The four classes of a bank's grants, by phase (R240). -/
inductive BankClass where
  | matrix | access | command | copy
  deriving DecidableEq, Repr

/-- What stands in a bank's queue for a probe of a context: this and its id, the name of no access. -/
def probeMark : Nat := 2 ^ 61

/-- What stands in a bank's queue for a row of another cluster's engine: the name of no access. -/
def engineRow : Nat := 2 ^ 62

/-- The context whose probe an entry of a bank's queue is. -/
def proberOf (id : Nat) : Option Nat := if probeMark ≤ id ∧ id < engineRow then some (id - probeMark) else none

/-- The head of a bank's queue of core accesses may be served: no earlier command of its context is left there (R254, R289). -/
def State.accessReady (s : State) (b : Bank) : Bool :=
  match b.accQ with
  | [] => false
  | (id, _) :: _ =>
    match proberOf id, s.acc id with
    | some g, _ => b.cmdQ.all fun c => (s.acc c.acc).elim true fun x => x.gid != g
    | none, none => true
    | none, some a => b.cmdQ.all fun c => decide (id < c.acc) || ((s.acc c.acc).elim true fun x => x.gid != a.gid)

/-- The head of a bank's command queue may go on: no earlier access of its context is left there (R289). -/
def State.commandReady (s : State) (b : Bank) : Bool :=
  match b.cmdQ with
  | [] => false
  | c :: _ =>
    match s.acc c.acc with
    | none => true
    | some a => b.accQ.all fun x => decide (c.acc < x.1) || ((s.acc x.1).elim true fun y => y.gid != a.gid)

/-- The class that takes a cycle's grant: the phase's own, or the next one that has a request; the matrix class takes one grant
a frame (R240). -/
def State.grantClass (s : State) (b : Bank) : Option BankClass :=
  let has := fun c => match c with
    | BankClass.matrix => b.mxQ != [] && b.mxFrame != some (s.cycle / 4)
    | .access => s.accessReady b
    | .command => s.commandReady b
    | .copy => decide (0 < b.copyQ)
  let order := [BankClass.matrix, .access, .command, .copy]
  ((order.drop (s.cycle % 4)) ++ order.take (s.cycle % 4)).find? has

/-- The first cycle at or after e of the core-access phase (R242). -/
def accessPhase (e : Nat) : Nat := e + (1 + 4 - e % 4) % 4

/-- Rows of other clusters' engines enter the queue of core accesses through the network port as far as there is room (R241, R269). -/
def Bank.takePort (b : Bank) : Bank :=
  let n := Nat.min b.portQ (16 - b.accQ.length)
  { b with portQ := b.portQ - n, accQ := b.accQ ++ List.replicate n (engineRow, 0) }

/-- The rows at a bank's network port look for room behind what else reaches the bank in that cycle (R241). -/
def State.pokePort (s : State) (core bank d : Nat) : State :=
  if ((s.core core).bank bank).portQ = 0 then s else s.postOnce d .bankGrant (core * 8 + bank) 1

/-- A bank's echo of a probe that left at a cycle (R254, R263). -/
def State.bankEcho (s : State) (g core bank left : Nat) : State :=
  let lat := slabTime (s.at g) core
  let late := s.cycle - accessPhase (left + arriveAfter (.bank core bank 0) lat)
  s.post (left + lat + late - s.cycle) .probeEcho g (8 * core + bank) 0

/-- One core access, or a probe, is served (R240 to R242). -/
def State.serveAccess (s : State) (core bank : Nat) : State :=
  match ((s.core core).bank bank).accQ with
  | [] => s
  | (id, k) :: rest =>
    let s := (s.modCore core fun x => x.modBank bank fun q => { q with accQ := rest }).pokePort core bank 1
    match proberOf id, s.partAt id k with
    | some g, _ => s.bankEcho g core bank k
    | none, none => s
    | none, some (a, p) =>
      let late := s.cycle - accessPhase (p.left + arriveAfter p.tgt p.lat)
      (s.effectPart a k p 0 (dieOfCore core)).servePart id k (p.left + p.lat + late) fun p => p

/-- PROBE_ECHO: a probe reaches its target, or its echo its context (R254). At a bank it waits in the queue of core accesses (R240, R241),
at a slice until the accesses before it have been served; what lies beyond the module answers for the accesses that it accepted, and is
looked at every 4 cycles (notes/assumptions/21.md). -/
def execProbeEcho (s : State) : Host.Outcome State Fault Refusal :=
  let g := s.arg.who
  let t := s.arg.what
  let c := s.ctx g
  if !c.probes.contains t then .next s
  else if s.arg.val = 0 then
    if 2 ^ 14 ≤ t ∧ !s.groupServed g (t - 2 ^ 14) then .next (s.post 4 .probeEcho g t 0)
    else .next (((s.setCtx g { c with probes := c.probes.filter fun x => x != t }).advanceRelease g).lookDrain g)
  else if 2 ^ 13 ≤ t then
    let sl := t - 2 ^ 13
    .next (if s.sliceServed g sl then s.sliceEcho g sl else s.modSlice sl fun x => { x with probers := x.probers ++ [g] })
  else
    let core := t / 8
    if (s.cluster (clusterOf core)).leasedCore = some core ∧ s.at g ≠ core then .next (s.post 64 .probeEcho g t s.arg.val)
    else if 16 ≤ ((s.core core).bank (t % 8)).accQ.length then .next (s.post 1 .probeEcho g t s.arg.val)
    else
      .next ((s.modCore core fun x => x.modBank (t % 8) fun q =>
        { q with accQ := q.accQ ++ [(probeMark + g, s.arg.val - 1)] }).pokeBank core (t % 8))

/-- The bytes of row i of a run that starts at byte b of a core's local memory. -/
def State.rowAt (s : State) (core b i : Nat) : List Byte := memBytes s.mem (slabPlace core (b + 256 * i)) 32

/-- A row written by a bank arithmetic unit. -/
def State.putRow (s : State) (core b i : Nat) (row : List Byte) : State :=
  s.writePlaces (((List.range 32).map fun k => slabPlace core (b + 256 * i) + k).zip row)

/-- The next row of a command needs a row that is poisoned (R411): of its source, or of its destination, which BKFILL and BKCVT do not
read (R286, R287). -/
def State.rowPoison (s : State) (core : Nat) (c : BankCmd) : Bool :=
  (c.op != 0x4D && c.op != 0x4E && s.poisoned (slabPlace core (c.dst + 256 * (if c.op = 0x4F then 0 else c.row))) 32)
    || (bankHasSource c.op && s.poisoned (slabPlace core (c.src + 256 * c.row)) 32)

/-- One row of a bank command: read, computed and written back in one grant (R284, R286). A BKSMX reads its inputs in ascending
order and updates row 0 in its last grant (notes/assumptions/26.md). -/
def State.bankRow (s : State) (core : Nat) (c : BankCmd) : BankCmd × State :=
  let d := s.rowAt core c.dst (if c.op = 0x4F then 0 else c.row)
  let r := s.rowAt core c.src c.row
  let next := { c with row := c.row + 1 }
  if c.op = 0x4C then
    if c.row + 1 < c.rows then
      ({ next with xs := (c.inputs (s.rowAt core c.dst (c.row + 1))).reverse ++ c.xs }, s)
    else (next, if c.rows = 1 then s else s.putRow core c.dst 0 (c.softmaxRow (s.rowAt core c.dst 0)))
  else (next, s.putRow core c.dst (if c.op = 0x4F then 0 else c.row) (c.rowOf d r))

/-- The cycles a command takes beyond its rows (R290). -/
def bankExtra (op : Nat) : Nat := if op = 0x4C ∨ op = 0x4D then 24 else 0

/-- A bank command ends. -/
def State.endCommand (s : State) (core bank : Nat) (c : BankCmd) (fault : Option Nat) : State :=
  let s := s.modCore core fun x => x.modBank bank fun q => { q with cmdQ := q.cmdQ.tail }
  match s.partAt c.acc 0 with
  | none => s
  | some (a, p) =>
    let s := match fault with | none => s | some f => s.failPart a 0 p f
    let late := s.cycle - (p.left + arriveAfter p.tgt p.lat)
    s.servePart c.acc 0 (p.left + p.lat + late + bankExtra c.op) fun p => p

/-- One row of the bank's command at the head (BANK_ROW_UPDATE). A command of a fenced domain changes nothing (R385); a command
whose context is gone has stopped. -/
def State.serveCommand (s : State) (core bank : Nat) : State :=
  match ((s.core core).bank bank).cmdQ with
  | [] => s
  | c :: rest =>
    match s.acc c.acc with
    | none => s.modCore core fun x => x.modBank bank fun q => { q with cmdQ := rest }
    | some a =>
      if s.fenced (dieOfCore core) a.domain a.domGen then
        (s.modCore core fun x => { x with dropped := x.dropped + 1 }).endCommand core bank c none
      else if s.rowPoison core c then s.endCommand core bank c (some Cause.parityKill)
      else
        let r := s.bankRow core c
        if r.1.row < c.rows then r.2.modCore core fun x => x.modBank bank fun q => { q with cmdQ := r.1 :: rest }
        else r.2.endCommand core bank r.1 none

/-- The core whose unit a bank serves next: in ascending order, starting after the one it last served (R326). -/
def Bank.nextUnit (b : Bank) : Option Nat :=
  match (b.mxQ.filter fun x => decide (b.mxLast < x.1)).map (·.1) |>.min? with
  | some k => some k
  | none => (b.mxQ.map (·.1)).min?

/-- One row pair goes to the unit whose turn it is (R240, R326). -/
def Bank.grantMatrix (b : Bank) : Bank :=
  match b.nextUnit with
  | none => b
  | some k =>
    let n := (mapGet b.mxQ k).getD 0
    { b with mxQ := if n ≤ 1 then mapErase b.mxQ k else mapSet b.mxQ k (n - 1), mxLast := k }

/-- The row pair of a frame goes to its unit, which counts its frames to this one (R326). -/
def State.grantPair (s : State) (core bank : Nat) : State :=
  let t := s.modCore core fun x => x.modBank bank fun q => { q.grantMatrix with mxFrame := some (s.cycle / 4) }
  match ((s.core core).bank bank).nextUnit with
  | none => t
  | some k => t.modCore k fun x => { x with mx := { x.mx with lastPair := s.cycle } }

/-- Something waits at a bank. -/
def Bank.waiting (b : Bank) : Bool := b.accQ != [] || b.cmdQ != [] || decide (0 < b.copyQ) || b.mxQ != []

/-- BANK_GRANT: the grant of one cycle (R240), or, with 1, the arrival of engines' rows through the network port (R241). -/
def execBankGrant (s : State) : Host.Outcome State Fault Refusal :=
  let core := s.arg.who / 8
  let bank := s.arg.who % 8
  let b := (s.core core).bank bank
  if s.arg.what ≠ 0 then .next ((s.modCore core fun x => x.modBank bank Bank.takePort).pokeBank core bank)
  else
  let t := s.modCore core fun x => x.modBank bank fun q => { q with nextAt := s.cycle + 1 }
  let t := match s.grantClass b with
    | none => t
    | some .matrix => t.grantPair core bank
    | some .access => t.serveAccess core bank
    | some .command => t.serveCommand core bank
    | some .copy => t.modCore core fun x => x.modBank bank fun q => { q with copyQ := q.copyQ - 1 }
  .next (if ((t.core core).bank bank).waiting then t.postOnce 1 .bankGrant s.arg.who else t)

/-! Slices (R246, R247). -/

/-- The set of a line in L2: 192 sets of 16 ways (R246). -/
def l2Set (line : Nat) : Nat := line / 160 % 192

/-- A line of L2, if held. -/
def Slice.line (x : Slice) (line : Nat) : Option L2Line := x.l2.find? fun l => l.line == line

/-- A line made the most recently used. -/
def Slice.touchLine (x : Slice) (line : Nat) : Slice :=
  { x with l2 := (x.l2.filter fun l => l.line != line) ++ x.l2.filter fun l => l.line == line }

/-- A sector of a line becomes valid, and dirty by a store; a set beyond its 16 ways loses its least recently used line (R246). -/
def Slice.install (x : Slice) (line sec : Nat) (entry : Word) (dirty : Bool) : Slice :=
  let old := (x.line line).getD ⟨line, entry, 0, 0⟩
  let b : BitVec 4 := 1 <<< (sec % 4)
  let new := { old with entry := entry, valid := old.valid ||| b, dirty := if dirty then old.dirty ||| b else old.dirty }
  let l2 := (x.l2.filter fun l => l.line != line) ++ [new]
  let same := l2.filter fun l => l2Set l.line == l2Set line
  match same with
  | l :: ls => { x with l2 := if 16 ≤ ls.length then l2.filter fun y => y.line != l.line else l2 }
  | [] => { x with l2 := l2 }

/-- The line that leaves L2 when a line enters a full set (R246). -/
def Slice.victim (x : Slice) (line : Nat) : Option L2Line :=
  if (x.line line).isSome then none
  else
    match x.l2.filter fun l => l2Set l.line == l2Set line with
    | l :: ls => if 15 ≤ ls.length then some l else none
    | [] => none

/-- What a request needs of its page (R71). -/
def SliceReq.need (s : State) : SliceReq → Rights
  | .part id _ => match s.acc id with | some a => if a.kind = .store then 2 else 1 | none => 1
  | .ifill _ _ => 4
  | .visit _ | .merge | .writeBack => 0

/-- The sector of a die's space that a request names. -/
def SliceReq.sector (s : State) : SliceReq → Option Nat
  | .part id k => match s.partAt id k with | some (_, p) => (match p.tgt with | .slice _ sec => some sec | _ => none) | none => none
  | .ifill _ sector => some (bits (word sector) 44 0 / 64)
  | .visit _ | .merge | .writeBack => none

/-- An instruction fill's sector leaves for its core, or its failure (R182, R183). -/
def State.sendIFill (s : State) (core sector : Nat) (delay : Nat) : State := s.post delay .icacheFill core sector

/-- What an instruction fill brings: the sector's bytes, or its poison mark, and whether its page is a U page (R71, R182, R411). -/
def State.loadIFill (s : State) (core sector place : Nat) (u : Bool) : State :=
  let bad := s.poisoned place 64
  let d := if bad then none else some (s.sectorAt place)
  s.modCore core fun k =>
    { k with ifills := k.ifills.map fun f => if f.sector = sector then { f with data := d, poison := bad, uncached := u } else f }

/-- The way back of an instruction fill. -/
def fillReturn (core sl : Nat) : Nat := pathTime core sl - pathTime core sl / 2

/-- A request whose page lacks a usable entry or a right fails with TRANSLATION (R78). -/
def State.failRequest (s : State) (sl : Nat) (r : SliceReq) : State :=
  match r with
  | .part id k =>
    match s.partAt id k with
    | none => s
    | some (a, p) =>
      let late := s.cycle - (p.left + arriveAfter p.tgt p.lat)
      (s.failPart a k p Cause.translation).servePart id k (p.left + p.lat + late) fun p => p
  | .ifill core sector => s.sendIFill core sector (fillReturn core sl)
  | .visit _ | .merge | .writeBack => s

/-- The sector a load brings to L1, and whether the remote-data cache of its die takes it (R243, R244, R249); a poisoned one is none. -/
def State.fillOf (s : State) (a : Access) (sl : Nat) (place : Nat) (entry : Word) : Option (BitVec 512 × Bool) :=
  if bits entry 5 5 = 1 ∨ a.kind = .store ∨ s.poison.contains (place / 64) then none
  else some (s.sectorAt place, bits entry 6 6 == 1 && sl / Config.slices != dieOfCore a.core)

/-- The slice that forwarded a request may go on with what it held back behind it (R84, R297). -/
def State.pokeHome (s : State) (sl : Nat) (t : Target) : State :=
  match t with
  | .slice own _ => if own = sl then s else s.pokeSlice own
  | _ => s

/-- A request takes effect at its slice under a page entry. `wait` says that its sector is still to come from the channel: then
the request ends with the fill, else now. -/
def State.takeRequest (s : State) (sl : Nat) (r : SliceReq) (entry : Word) (wait : Bool) : State :=
  match r with
  | .part id k =>
    match s.partAt id k with
    | none => s
    | some (a, p) =>
      let place := p.place entry ((p.bytes.headD (0, 0)).1)
      let s := s.effectPart a k p entry (sl / Config.slices)
      let s := s.modPartOf id k fun p => { p with fill := s.fillOf a sl place entry }
      let late := s.cycle - (p.left + arriveAfter p.tgt p.lat)
      let s := s.pokeHome sl p.tgt
      if wait then s.modPartOf id k fun p => { p with stage := .taken } else s.servePart id k (p.left + p.lat + late) fun p => p
  | .ifill core sector =>
    let s := s.loadIFill core sector (framePlace (sl / Config.slices) (bits (word sector) 44 0) (bits entry 29 16)) (bits entry 5 5 == 1)
    if wait then s else s.sendIFill core sector (fillReturn core sl)
  | .visit _ | .merge | .writeBack => s

/-- A request whose sector came from the channel ends (R246). -/
def State.endRequest (s : State) (sl : Nat) (r : SliceReq) : State :=
  match r with
  | .part id k =>
    match s.partAt id k with
    | none => s
    | some (_, p) => s.servePart id k (s.cycle + (p.lat - arriveAfter p.tgt p.lat)) fun p => p
  | .ifill core sector => s.sendIFill core sector (fillReturn core sl)
  | .visit _ | .merge | .writeBack => s

/-- A request waits at the channel, which may take it in the same cycle (R248, R251). -/
def State.toChannel (s : State) (sl sec : Nat) (r : SliceReq) : State :=
  (s.modSlice sl fun x => { x with chanQ := x.chanQ ++ [(sec, r)] }).postOnce 0 .hbmChannelServe sl

/-- A sector enters L2; the dirty sectors of a line that leaves are written back through the channel (R246, R248).
DEDUCED, notes/assumptions/9.md. -/
def State.enterL2 (s : State) (sl sec : Nat) (entry : Word) (dirty : Bool) : State :=
  let v := (s.slice sl).victim (sec / 4)
  let s := s.modSlice sl fun x => x.install (sec / 4) sec entry dirty
  match v with
  | none => s
  | some l => (List.range 4).foldl (fun s i => if l.dirty.getLsbD i then s.toChannel sl (4 * l.line + i) .writeBack else s) s

/-- The mark by which SLICE_DATA_SERVE tells a load that another slice forwards from an instruction fill. -/
def forwardMark : Nat := 2 ^ 60

/-- A load of a member sector goes on to the slice of the barrier's header (R84), with a time of its own.
DESIGN CHOICE, notes/assumptions/59.md. -/
def State.forward (s : State) (dst : Nat) (r : SliceReq) : State :=
  match r with
  | .part id k => let t := s.freeRange 85 115; t.2.post t.1 .sliceDataServe dst (forwardMark + id) k
  | _ => s

/-- The slice to which a load's request must go on, if it is not this one (R84). -/
def State.forwardTo (s : State) (sl : Nat) (r : SliceReq) (entry : Word) : Option Nat :=
  match r with
  | .part id k =>
    match s.partAt id k with
    | none => none
    | some (a, p) =>
      let dst := s.holderSlice (p.place entry (p.bytes.headD (0, 0)).1 / 64)
      if a.kind = .store ∨ dst = sl then none else some dst
  | _ => none

/-- A context parked on an access whose line moves shows wait reason 11 (R374, R428). -/
def State.waitPage (s : State) (r : SliceReq) : State :=
  match r with
  | .part id _ =>
    match s.acc id with
    | none => s
    | some a => s.modCtx a.gid fun c => if c.wait = .access id then { c with wait := .pageMove } else c
  | _ => s

/-- A request with its page entry is served: from L2, or by way of the channel; a U page always goes there; a store that misses
allocates its sector and is acknowledged at once, and a load of that sector ends with the store's fill (R71, R246). One of a line
that moves is held until the line is remapped (R428). -/
def State.serveRequest (s : State) (sl sec : Nat) (r : SliceReq) (entry : Word) : State :=
  let line := sec / 4
  let store := SliceReq.need s r == 2
  if !s.pageGrants (sl / Config.slices) entry (SliceReq.need s r) then s.failRequest sl r
  else if s.lineMoving sl sec then (s.modSlice sl fun x => { x with moving := x.moving ++ [r] }).waitPage r
  else
    match s.forwardTo sl r entry with
    | some dst => s.forward dst r
    | none =>
      if bits entry 5 5 = 1 then (s.takeRequest sl r entry true).toChannel sl sec r
      else
        let x := s.slice sl
        let valid := (x.line line).any fun l => l.valid.getLsbD (sec % 4)
        let coming := x.chanQ.any (fun q => q.1 == sec && q.2 != .writeBack) || x.filling.any (fun q => q.1 == sec)
        if store then
          let s := s.enterL2 sl sec entry true
          let s := s.takeRequest sl r entry false
          if valid then s else s.toChannel sl sec .merge
        else if valid && !coming then
          (s.modSlice sl fun x => x.touchLine line).takeRequest sl r entry false
        else if x.chanQ.contains (sec, .merge) || x.filling.contains (sec, .merge) then
          (s.takeRequest sl r entry true).modSlice sl fun x => { x with joined := x.joined ++ [(sec, r)] }
        else (s.takeRequest sl r entry true).toChannel sl sec r

/-- A page is being walked or queued for it, so that a further miss merges (R73). -/
def Slice.walking (x : Slice) (page : Nat) : Bool := x.walks.contains page || x.walkQ.contains page

/-- A miss of a page would need a walk of its own, and the walk queue has no place for it (R73). -/
def Slice.walksFull (x : Slice) (page : Nat) : Bool :=
  !x.walking page && decide (64 ≤ x.walks.length) && decide (256 ≤ x.walkQ.length)

/-- A request at the data port needs a walk of its own, and the walk queue has no place for it (R73). -/
def State.walkBlocked (s : State) (sl : Nat) (r : SliceReq) : Bool :=
  match SliceReq.sector s r with
  | none => false
  | some sec =>
    let x := s.slice sl
    (x.line (sec / 4)).isNone && !x.tlb.any (fun t => t.1 == sec / 2 ^ 19) && x.walksFull (sec / 2 ^ 19)

/-- A walk starts: one HBM word of the frame table, 420 to 560 cycles (R73). -/
def State.startWalk (s : State) (sl page : Nat) : State :=
  let t := (s.modSlice sl fun x => { x with walks := x.walks ++ [page] }).freeRange 420 560
  t.2.post t.1 .walkComplete sl page

/-- The set of a page in the translation buffer: 512 sets of 8 ways (R72). -/
def tlbInsert (tlb : List (Nat × Word)) (page : Nat) (entry : Word) : List (Nat × Word) :=
  let t := (tlb.filter fun x => x.1 != page) ++ [(page, entry)]
  let same := t.filter fun x => x.1 % 512 == page % 512
  match same with
  | x :: xs => if 8 ≤ xs.length then t.filter fun y => y.1 != x.1 else t
  | [] => t

/-- A request waits for the walk of its page: it merges with one under way or queued, starts one, or queues one (R73). -/
def State.walkFor (s : State) (sl page : Nat) (r : SliceReq) : State :=
  let x := s.slice sl
  let s := s.modSlice sl fun x => { x with merged := x.merged ++ [(page, r)] }
  if x.walking page then s
  else if x.walks.length < 64 then s.startWalk sl page
  else s.modSlice sl fun x => { x with walkQ := x.walkQ ++ [page] }

/-- A request at the data port: L2, the translation buffer, or a walk (R72, R73). -/
def State.portRequest (s : State) (sl : Nat) (r : SliceReq) : State :=
  match SliceReq.sector s r with
  | none => s
  | some sec =>
    let x := s.slice sl
    let page := sec / 2 ^ 19
    match x.line (sec / 4) with
    | some l => s.serveRequest sl sec r l.entry
    | none =>
      match x.tlb.find? fun t => t.1 == page with
      | some t => (s.modSlice sl fun x => { x with tlb := tlbInsert x.tlb t.1 t.2 }).serveRequest sl sec r t.2
      | none => s.walkFor sl page r

/-! Accesses that do not come by the data port: objects' requests, the engines and the host's window. -/

/-- The home slice has the entry of an offset's page at hand: in the L2 line or in its translation buffer (R72). -/
def State.pageAtHand (s : State) (die off : Nat) : Bool :=
  let x := s.slice (sliceOf die (homeOf off))
  (x.line (off / 256)).isSome || x.tlb.any fun t => t.1 == off / 2 ^ 25

/-- A page of the translation buffer made the most recently used (R72). -/
def Slice.touchPage (x : Slice) (page : Nat) : Slice :=
  { x with tlb := (x.tlb.filter fun t => t.1 != page) ++ x.tlb.filter fun t => t.1 == page }

/-- The entry at hand becomes the most recently used (R72, R246). -/
def State.usePage (s : State) (die off : Nat) : State :=
  s.modSlice (sliceOf die (homeOf off)) fun x =>
    if (x.line (off / 256)).isSome then x.touchLine (off / 256) else x.touchPage (off / 2 ^ 25)

/-- An access to an offset must wait for a walk of its page (R73): the page is not at hand, and no walk has found it without a usable
entry of late, for those who come back to see what their walk found. DESIGN CHOICE, notes/assumptions/60.md. -/
def State.mustWalk (s : State) (die off : Nat) : Bool :=
  let x := s.slice (sliceOf die (homeOf off))
  let page := off / 2 ^ 25
  !s.pageAtHand die off && !x.absent.any fun p => p.1 == page && decide (s.cycle < p.2 + 64)

/-- The addresses of this module's global memory that some accesses name, one for each line. -/
def globalLines (as : List Word) : List Word :=
  ((as.filter fun a => bits a 63 56 == 0 && bits a 55 46 == Config.moduleNumber).map fun a => a &&& ~~~0xFF).eraseDups

/-- The pages of some accesses are looked up at their home slices: false when a walk must end first, which is then under way or finds
the walk queue full, or while a line of theirs moves (R428); `port` is 1 + the slice whose object port waits for it, or 0. -/
def State.lookUpFor (s : State) (port : Nat) (as : List Word) : Bool × State :=
  (globalLines as).foldl (fun r a =>
    let die := bits a 45 45
    let off := bits a 44 0
    let sl := sliceOf die (homeOf off)
    let x := r.2.slice sl
    let page := off / 2 ^ 25
    if r.2.lineMoving sl (off / 64) then (false, r.2)
    else if !r.2.mustWalk die off then (r.1, r.2.usePage die off)
    else if x.walksFull page || x.merged.contains (page, .visit port) then (false, r.2)
    else (false, r.2.walkFor sl page (.visit port))) (true, s)

/-- The same for an engine or the host, which look again. -/
def State.lookUp (s : State) (as : List Word) : Bool × State := s.lookUpFor 0 as

/-- The pages of some accesses in the middle of a step of the object processor: each that is not at hand takes the time of a walk, and a
usable entry enters the buffer (R72, R73, R126). DESIGN CHOICE, notes/assumptions/60.md. -/
def State.visitNow (s : State) (as : List Word) : Nat × State :=
  (globalLines as).foldl (fun r a =>
    let die := bits a 45 45
    let off := bits a 44 0
    let page := off / 2 ^ 25
    if r.2.pageAtHand die off then (r.1, r.2.usePage die off)
    else
      let t := r.2.freeRange 420 560
      let e := t.2.pageEntry die page
      (r.1 + t.1, if t.2.entryUsable die e then
          t.2.modSlice (sliceOf die (homeOf off)) fun x => { x with tlb := tlbInsert x.tlb page e }
        else t.2)) (0, s)

/-- The way of one line's access by an engine or the host through L2: its uncontended time at the slice beyond an L2 hit's, and L2
afterwards: a line that misses enters, a U page's does not (R71, R246, R251). -/
def State.passL2 (s : State) (die off : Nat) (write : Bool) : Nat × State :=
  let sl := sliceOf die (homeOf off)
  let e := s.entryOf die off
  let hit := ((s.slice sl).line (off / 256)).any fun l => l.valid.getLsbD (off / 64 % 4)
  if !s.entryUsable die e then (0, s)
  else if bits e 5 5 = 1 then s.freeRange 250 330
  else
    let s := s.enterL2 sl (off / 64) e write
    if hit || write then (0, s) else s.freeRange 250 330

/-- The lines of some addresses pass L2 one after another. -/
def State.passLines (s : State) (as : List Word) (write : Bool) : State :=
  (globalLines as).foldl (fun s a => (s.passL2 (bits a 45 45) (bits a 44 0) write).2) s

/-! The data port. -/

/-- A request may not be served before an earlier one of its context, or of its core on the hashed path, that goes to the same slice
(R245, R297), nor while that one waits for the rest of its store (R78). -/
def State.heldBack (s : State) : SliceReq → Bool
  | .part id k =>
    match s.partAt id k with
    | none => false
    | some (a, p) =>
      s.accs.any fun b => b.before a && b.parts.any fun q =>
        sameTarget q.tgt p.tgt && (decide (q.stage = .sent) || q.waits || (b.gid == a.gid && decide (q.stage = .accepted)))
  | _ => false

/-- SLICE_DATA_SERVE: a fill's request or a forwarded load arrives, or the data port serves the first request of its input queue that it
may, one a cycle (R84, R247, R297, R353). -/
def execSliceDataServe (s : State) : Host.Outcome State Fault Refusal :=
  let sl := s.arg.who
  if s.arg.what ≠ 0 then
    let r := if s.arg.what < forwardMark then SliceReq.ifill s.arg.val (s.arg.what - 1)
             else .part (s.arg.what - forwardMark) s.arg.val
    .next ((s.modSlice sl fun x => { x with inQ := x.inQ ++ [r] }).pokeSlice sl)
  else
    let x := s.slice sl
    if s.cycle < x.dataAt then .next (s.postOnce (x.dataAt - s.cycle) .sliceDataServe sl)
    else
      match x.inQ.find? fun r => !s.walkBlocked sl r && !s.heldBack r with
      | none => .next s
      | some r =>
        let s := s.modSlice sl fun x => { x with inQ := x.inQ.erase r, dataAt := s.cycle + 1 }
        let s := s.portRequest sl r
        .next (if (s.slice sl).inQ = [] then s else s.postOnce 1 .sliceDataServe sl)

/-- WALK_COMPLETE: entry P of the frame table has been read; the buffer takes a usable entry, the merged requests are served in
arrival order, and a queued walk may start (R69, R73, R74). -/
def execWalkComplete (s : State) : Host.Outcome State Fault Refusal :=
  let sl := s.arg.who
  let page := s.arg.what
  let x := s.slice sl
  if !x.walks.contains page then .next s
  else
    let die := sl / Config.slices
    let e := s.pageEntry die page
    let rs := (x.merged.filter fun m => m.1 == page).map (·.2)
    let s := s.modSlice sl fun x =>
      { x with
        walks := x.walks.erase page
        merged := x.merged.filter fun m => m.1 != page
        tlb := if s.entryUsable die e then tlbInsert x.tlb page e else x.tlb
        absent := (x.absent.filter fun p => p.1 != page && decide (s.cycle < p.2 + 64)) ++
          (if s.entryUsable die e then [] else [(page, s.cycle)]) }
    let s := match x.walkQ with
      | [] => s
      | p :: ps => (s.modSlice sl fun x => { x with walkQ := ps }).startWalk sl p
    let s : State := rs.foldl (fun (s : State) (r : SliceReq) =>
      match r with
      | .visit (p + 1) => s.postSoon 0 .objectRequestArrival p
      | _ => match SliceReq.sector s r with | none => s | some sec => s.serveRequest sl sec r e) s
    .next (if (s.slice sl).inQ = [] then s else s.postOnce 1 .sliceDataServe sl)

/-- HBM_CHANNEL_SERVE: the channel takes its oldest request, with at most 64 outstanding; a read takes 420 to 560 cycles in all,
a write-back is done with its 64 bytes, which keep the channel busy for 2 (R248, R251, R252). A request of a line that moves is held with
wait reason 11, and one of a line in the reserve takes the time of the channel that holds it (R428). -/
def execHbmChannelServe (s : State) : Host.Outcome State Fault Refusal :=
  let sl := s.arg.who
  let x := s.slice sl
  match x.chanQ with
  | [] => .next s
  | (sec, r) :: rest =>
    if 64 ≤ x.filling.length then .next (s.postOnce 2 .hbmChannelServe sl)
    else if s.lineMoving sl sec then .next ((s.waitPage r).postOnce 16 .hbmChannelServe sl)
    else if r = .writeBack then
      let s := s.modSlice sl fun x => { x with chanQ := rest }
      .next (if rest = [] then s else s.postOnce 2 .hbmChannelServe sl)
    else
      let s := s.modSlice sl fun x => { x with chanQ := rest, filling := x.filling ++ [(sec, r)] }
      let ch := s.channelOf sl sec
      let t := s.freeRange 250 330
      let done := Nat.min (s.cycle + 330) (Nat.max (s.cycle + t.1) ((s.slice ch).chanAt + 2))
      let s := (t.2.modSlice ch fun x => { x with chanAt := done }).post (done - s.cycle) .l2Fill sl sec
      .next (if rest = [] then s else s.postOnce 2 .hbmChannelServe sl)

/-- The loads that wait for a store's fill of a sector end with it (R246). -/
def State.endJoined (s : State) (sl sec : Nat) : State :=
  let rs := (s.slice sl).joined.filter fun j => j.1 == sec
  rs.foldl (fun s j => s.endRequest sl j.2) (s.modSlice sl fun x => { x with joined := x.joined.filter fun j => j.1 != sec })

/-- L2_FILL: a sector arrives from the channel; L2 holds it unless its page is uncached, and the requests that waited end
(R67, R246). -/
def execL2Fill (s : State) : Host.Outcome State Fault Refusal :=
  let sl := s.arg.who
  let sec := s.arg.what
  let x := s.slice sl
  match x.filling.find? fun f => f.1 == sec with
  | none => .next s
  | some f =>
    let s := s.modSlice sl fun x => { x with filling := x.filling.erase f }
    let die := sl / Config.slices
    let e := s.entryOf die (64 * sec)
    let s := if bits e 5 5 = 1 ∨ !s.entryUsable die e then s else s.enterL2 sl sec e false
    let s := s.endRequest sl f.2
    .next (if f.2 = .merge then s.endJoined sl sec else s)

end Sys2Proof.Machine
end

