-- ==== Sys2Proof/Machine/ObjectOps.lean ====
section
/-!
DEFINITION. What the operations on typed sectors do to an object's words (spec/04_objects.md R87 to R93, R104 to R107, R115 to
R123), and the untyped atomics (R125).
-/
namespace Sys2Proof.Machine

/-- An object as its home holds it: its tag, its words d0 to d7, and, of a barrier, its members' lead counters (R84, R89). -/
structure Obj where
  tag   : Nat
  ws    : List Word
  leads : List Nat
  deriving DecidableEq, Repr

/-- A word of an object. -/
def Obj.d (o : Obj) (k : Nat) : Word := o.ws.getD k 0

/-- A word of an object replaced. -/
def Obj.set (o : Obj) (k : Nat) (x : Word) : Obj := { o with ws := o.ws.set k x }

/-- The image holds zero in these words. -/
def Obj.zero (o : Obj) (ks : List Nat) : Bool := ks.all fun k => o.d k == 0

/-! Barriers (R89, R106, R107). -/

/-- MEMBERS of a barrier. -/
def Obj.members (o : Obj) : Nat := bits (o.d 0) 12 0

/-- The member sectors of a barrier of so many members (R89). -/
def memberSectors (n : Nat) : Nat := (n + 255) / 256

/-- PHASE of a barrier. -/
def Obj.phase (o : Obj) : BitVec 32 := (o.d 1).setWidth 32

/-- LOCAL of a barrier. -/
def Obj.local_ (o : Obj) : BitVec 32 := (o.d 1 >>> 32).setWidth 32

/-- PHASE and LOCAL replaced. -/
def Obj.setPhases (o : Obj) (phase loc : BitVec 32) : Obj := o.set 1 (loc ++ phase)

/-- ARRIVED: the members whose lead counter is at least 1. -/
def arrivedOf (leads : List Nat) : Nat := (leads.filter fun l => l != 0).length

/-- The lead counters replaced, with ARRIVED (R89). -/
def Obj.setLeads (o : Obj) (ls : List Nat) : Obj := { o.set 2 (word (arrivedOf ls)) with leads := ls }

/-- PARENT of a barrier. -/
def Obj.parent (o : Obj) : Word := word (bits (o.d 3) 56 0)

/-- A local completion is due (R107). -/
def Obj.completes (o : Obj) : Bool :=
  arrivedOf o.leads == o.members && (o.parent == 0 || decide ((o.local_ - o.phase).toNat < 3))

/-- One local completion (R107). -/
def Obj.complete (o : Obj) : Obj :=
  let p := if o.parent = 0 then o.phase + 1 else o.phase
  (o.setLeads (o.leads.map fun l => l - 1)).setPhases p (o.local_ + 1)

/-- The completion rule, applied while it holds, and how often it did (R107): a lead counter is at most 3. -/
def Obj.completeAll (o : Obj) : Nat → Obj × Nat
  | 0 => (o, 0)
  | n + 1 =>
    if o.completes then
      let r := o.complete.completeAll n
      (r.1, r.2 + 1)
    else (o, 0)

/-- The lead counter of a member. -/
def Obj.lead (o : Obj) (m : Nat) : Nat := o.leads.getD m 0

/-- An arrival of a member, its target T, and the local completions it brings (R106, R119). -/
def Obj.arrive (o : Obj) (m : Nat) : Obj × BitVec 32 × Nat :=
  let o := o.setLeads (o.leads.set m (o.lead m + 1))
  let t := o.local_ + BitVec.ofNat 32 (o.lead m)
  let r := o.completeAll 4
  (r.1, t, r.2)

/-! Queues (R91). -/

/-- CAPACITY of a queue. -/
def Obj.capacity (o : Obj) : Nat := bits (o.d 1) 16 0

/-- The entry size of a queue in bytes. -/
def Obj.esize (o : Obj) : Nat := [8, 16, 32, 64, 256].getD (bits (o.d 1) 34 32) 0

/-- The address of entry number n in the ring. -/
def Obj.ringSlot (o : Obj) (n : Word) : Word := word (bits (o.d 0) 56 0 + n.toNat % o.capacity * o.esize)

/-! Requests. -/

/-- The types that accept an operation (R113). -/
def acceptsTag (op tag : Nat) : Bool :=
  match op with
  | 0x28 => tag == 0
  | 0x29 => [1, 2, 4, 5, 6, 7, 8].contains tag
  | 0x2A => true
  | 0x2B | 0x2C | 0x2D => tag == 1
  | 0x2E | 0x2F | 0x30 => tag == 2
  | 0x31 | 0x32 => tag == 4
  | 0x33 | 0x34 => tag == 5
  | 0x35 | 0x36 | 0x37 => tag == 6
  | 0x38 | 0x39 | 0x3A => tag == 7
  | _ => true

/-- The condition of a request (R118 to R123). `target` is the ticket of an LTAKE or the phase of a BARW that has arrived. -/
def Obj.holds (o : Obj) (op : Nat) (operand target : Word) (arrived : Bool) : Bool :=
  match op with
  | 0x2C => (0 : Word).sle (o.d 0 - operand)
  | 0x2E => decide (o.lead operand.toNat < 3)
  | 0x2F => (0 : BitVec 32).sle (o.phase - operand.setWidth 32)
  | 0x30 => if arrived then (0 : BitVec 32).sle (o.phase - target.setWidth 32) else decide (o.lead operand.toNat < 3)
  | 0x31 => o.d 1 == target
  | 0x33 => decide ((o.d 3 - o.d 2).toNat < o.capacity)
  | 0x34 => decide (0 < (o.d 3 - o.d 2).toNat)
  | 0x35 => bits (o.d 0) 0 0 == 1
  | 0x38 | 0x3A => bits (o.d 1) 0 0 == 1
  | 0x39 => bits (o.d 1) 0 0 == 0
  | _ => true

/-- The effect of a request on the object's words and its result (R118 to R123); the local completions it brings. What a queue's
ring holds is the home's to copy. -/
def Obj.effect (o : Obj) (op : Nat) (operand target : Word) : Obj × Word × Nat :=
  match op with
  | 0x2A =>
    (o, if bits operand 3 0 < 8 then o.d (bits operand 3 0) else if bits operand 3 0 = 8 then word o.tag else 0, 0)
  | 0x2B => (o.set 0 (o.d 0 + operand), o.d 0, 0)
  | 0x2C => (o, o.d 0, 0)
  | 0x2D => (o.set 0 operand, o.d 0, 0)
  | 0x2E =>
    let r := o.arrive operand.toNat
    (r.1, r.2.1.setWidth 64, r.2.2)
  | 0x2F => (o, o.phase.setWidth 64, 0)
  | 0x30 => (o, target, 0)
  | 0x31 => (o, target, 0)
  | 0x32 => (o.set 1 (o.d 1 + 1), o.d 1, 0)
  | 0x33 => (o.set 3 (o.d 3 + 1), o.d 3, 0)
  | 0x34 => (o.set 2 (o.d 2 + 1), o.d 2, 0)
  | 0x35 => (o.set 0 0, 0, 0)
  | 0x36 => ((o.set 0 1).set 1 (o.d 1 + 1), 0, 0)
  | 0x37 => (o.set 1 (o.d 1 + 1), 0, 0)
  | 0x38 => (o.set 1 0, o.d 0, 0)
  | 0x39 => ((o.set 0 operand).set 1 1, 0, 0)
  | 0x3A => (o, o.d 0, 0)
  | _ => (o, 0, 0)

/-- The type or state refuses the request, or its operand is out of range (R114 check 4, R119, R120). OINIT and OFREE have tests
of their own. -/
def Obj.refuses (o : Obj) (op : Nat) (operand : Word) : Bool :=
  !acceptsTag op o.tag
    || ((op == 0x2E || op == 0x30) && decide (o.members ≤ operand.toNat))
    || (op == 0x32 && o.d 0 == o.d 1)

/-- OFREE is refused (R116). -/
def Obj.keeps (o : Obj) : Bool :=
  !acceptsTag 0x29 o.tag || bits (o.d 7) 31 0 != 0 || (o.tag == 2 && o.local_ != o.phase)

/-- The limits that an image must respect to become an object of a type (R87 to R93, R115), but for a barrier's members and
parent. `die` is the home's. -/
def imageOk (die typ : Nat) (o : Obj) : Bool :=
  o.d 7 == 0 &&
  match typ with
  | 1 => o.zero [1, 2, 3, 4, 5, 6]
  | 2 =>
    decide (1 ≤ bits (o.d 0) 63 0) && decide (bits (o.d 0) 63 0 ≤ 4096) && o.phase == o.local_ && o.d 2 == 0
      && bits (o.d 3) 63 57 == 0 && bits (o.d 4) 63 12 == 0 && (o.d 3 != 0 || o.d 4 == 0) && o.zero [5, 6]
  | 4 => o.d 0 == o.d 1 && o.zero [2, 3, 4, 5, 6]
  | 5 =>
    bits (o.d 0) 63 56 == 0 && bits (o.d 0) 55 46 == Config.moduleNumber && homeDie (o.d 0) == die
      && decide (1 ≤ o.capacity) && decide (o.capacity ≤ 65536) && bits (o.d 1) 31 17 == 0 && bits (o.d 1) 63 35 == 0
      && decide (bits (o.d 1) 34 32 ≤ 4) && bits (o.d 0) 55 0 % Nat.min 64 (Nat.max 1 o.esize) == 0
      && o.d 2 == o.d 3 && o.zero [4, 5, 6]
  | 6 => bits (o.d 0) 63 1 == 0 && o.zero [2, 3, 4, 5, 6]
  | 7 => bits (o.d 1) 63 1 == 0 && o.zero [2, 3, 4, 5, 6]
  | _ => false

/-- The derived fields of a new object (R115): SIGNALS of a condition is 0. -/
def Obj.typed (o : Obj) (typ : Nat) : Obj :=
  let o := { o with tag := typ }
  if typ = 6 then o.set 1 0
  else if typ = 2 then o.setLeads (List.replicate o.members 0) else o

/-! Untyped atomics (R125). -/

/-- The new word of an atomic of w bits. -/
def atomicNew (op w old v expect : Nat) : Nat :=
  let s := fun x : Nat => (BitVec.ofNat w x).toInt
  match op with
  | 0x40 => (old + v) % 2 ^ w
  | 0x41 => v
  | 0x42 => if old = expect then v else old
  | 0x43 => if s old < s v then v else old
  | 0x44 => if s v < s old then v else old
  | 0x45 => Nat.land old v
  | 0x46 => Nat.lor old v
  | _ => Nat.xor old v

end Sys2Proof.Machine
end

