-- ==== Sys2Proof/Machine/Home.lean ====
section
/-!
DEFINITION. The object processor of a home slice: requests, wait lists, grants, barriers' parents, the replies and WAKEs, and
combining in the switches (spec/04_objects.md R81 to R126, spec/05_launch.md R132 to R135, spec/16_messages_and_networks.md R349
to R352).
-/
namespace Sys2Proof.Machine

/-! Objects in memory. -/

/-- The sector's number of an address of this module. -/
def State.sectorOf (s : State) (a : Word) : Nat := s.placeOf a / 64

/-- The lead counters of a barrier of n members, from its member sectors (R89). -/
def State.readLeads (s : State) (a : Word) (n : Nat) : List Nat :=
  let bs := (List.range (memberSectors n)).map fun i => natOfBytes (memBytes s.mem (s.placeOf (a + word (64 * (i + 1)))) 64)
  (List.range n).map fun m => bs.getD (m / 256) 0 / 4 ^ (m % 256) % 4

/-- The sectors of an object in memory: a barrier's member sectors with its header. -/
def Obj.sectors (o : Obj) : Nat := if o.tag = 2 then 1 + memberSectors o.members else 1

/-- Reading the object would read poison: of its header or of a member sector (R411). -/
def State.objectPoisoned (s : State) (a : Word) (o : Obj) : Bool :=
  (List.range o.sectors).any fun i => s.poisoned (s.placeOf (a + word (64 * i))) 64

/-- The object at an address. -/
def State.object (s : State) (a : Word) : Obj :=
  let p := s.placeOf a
  let ws := (List.range 8).map fun k => word (natOfBytes (memBytes s.mem (p + 8 * k) 8))
  let t := s.tag (p / 64)
  ⟨t, ws, if t = 2 then s.readLeads a (bits (ws.getD 0 0) 12 0) else []⟩

/-- The member sectors of a barrier written from its lead counters, with their tag. -/
def State.writeLeads (s : State) (a : Word) (leads : List Nat) (tag : Nat) : State :=
  (List.range (memberSectors leads.length)).foldl (fun s i =>
    let p := s.placeOf (a + word (64 * (i + 1)))
    let v := ((leads.drop (256 * i)).take 256).foldr (fun l n => l + 4 * n) 0
    { s with mem := memWrite s.mem p (bytesOfNat 64 v) }.setTag (p / 64) tag) s

/-- The object at an address replaced; a write of its whole sector clears a poison mark (R411). -/
def State.setObject (s : State) (a : Word) (o : Obj) : State :=
  let p := s.placeOf a
  let s := { s with mem := memWrite s.mem p (o.ws.flatMap fun (w : Word) => bytesOfNat 8 w.toNat) }
  let s := s.setTag (p / 64) o.tag
  if o.tag = 2 then s.writeLeads a o.leads 3 else s

/-- The slice that is the home of an address keeps its wait list under this key. -/
def waitKey (a : Word) : Nat := bits a 56 0

/-- The entries of an object's wait list, oldest first. -/
def State.waitsOf (s : State) (a : Word) : List WaitEntry := (s.slice (homeSlice a)).waits.filter fun e => e.addr == waitKey a

/-- WAITERS and SPILLED of a typed header brought up to date (R87). -/
def State.countWaits (s : State) (a : Word) : State :=
  let p := s.placeOf a
  if s.tag (p / 64) = 0 ∨ s.tag (p / 64) = 3 then s
  else
    let es := s.waitsOf a
    let w := es.length + 2 ^ 32 * (es.filter (·.spilled)).length
    { s with mem := memWrite s.mem (p + 56) (bytesOfNat 8 w) }

/-! Replies. -/

/-- The way to the home: a parent request takes half of its round trip each way (R126). -/
def ObjReq.out (r : ObjReq) : Nat := if r.ctxid = 0xFFFFFFFF then r.trip / 2 else r.leg

/-- The way back from a home to the requester. -/
def ObjReq.back (r : ObjReq) : Nat := r.trip - r.out

/-- The reply to a request leaves its home, d cycles from now (R94, R111, R134): a combined request's goes by way of its switch, which
lies 12 cycles from its requesters' side of the path. -/
def State.reply (s : State) (d : Nat) (r : ObjReq) (code : Nat) (value : Word) (cause : Nat) : State :=
  let m := s.sendMsg (.objReply r code value cause)
  if r.parts ≠ [] then m.2.post (d + 12) .combinedReplySplit r.origin.2 m.1
  else
    m.2.post (d + r.back) (if r.eng = 1 then .mxCtrReply else if r.eng = 2 then .cpActionReply else .objectReply) r.ctxid m.1

/-- A grant leaves its home as a WAKE, or, with a cause, the refusal of a waiter (R102, R108, R111). -/
def State.sendWake (s : State) (d : Nat) (r : ObjReq) (value : Word) (cause : Nat) : State :=
  let m := s.sendMsg (.wakeUp r value cause)
  if r.ctxid = 0xFFFFFFFF then m.2.post (d + r.back) .parentWake (homeSlice r.operand) m.1
  else
    m.2.post (d + r.back) (if r.eng = 1 then .mxCtrReply else if r.eng = 2 then .cpActionReply else .wake) r.ctxid m.1

/-! Wait lists (R98 to R101). -/

/-- Freed storage brings spilled entries back, with an HBM read (R100, R126). -/
def State.refillSoon (s : State) (sl : Nat) : State :=
  match (s.slice sl).waits.find? (·.spilled) with
  | none => s
  | some e =>
    let t := s.saggarRead (sl / Config.slices) (spillByte sl e.seq) 16
    t.2.postOnce t.1 .spillRefill sl

/-- A wait-list entry taken off (R100). -/
def State.dropWait (s : State) (sl seq : Nat) : State :=
  (s.modSlice sl fun x => { x with waits := x.waits.filter fun e => e.seq != seq }).refillSoon sl

/-- The entries of a slice that a partition is charged for (R100). -/
def Slice.charged (x : Slice) (vf : Nat) (spilled : Bool) : Nat :=
  (x.waits.filter fun e => e.req.vf == vf && e.spilled == spilled).length

/-- Where a new entry of a request goes: storage (false), the spill ring (true), or nowhere (R100, R101). -/
def State.waitRoom (s : State) (r : ObjReq) : Option Bool :=
  let x := s.slice (homeSlice r.addr)
  let stored := (x.waits.filter fun e => !e.spilled).length
  let p := s.part r.vf
  if !(s.waitsOf r.addr).any (·.spilled) && decide (stored < 4096) && (r.vf == 0 || decide (x.charged r.vf false < p.wquota.toNat)) then
    some false
  else if x.waits.length - stored < 65536 ∧ (r.vf = 0 ∨ x.charged r.vf true < p.squota.toNat) then some true
  else none

/-- A request appended to its object's list, with the REGISTERED reply (R98). -/
def State.register (s : State) (d : Nat) (r : ObjReq) (target : Word) (arrived spilled : Bool) : State :=
  let f := s.fresh
  let s := f.2.modSlice (homeSlice r.addr) fun x =>
    { x with waits := x.waits ++ [⟨waitKey r.addr, r, target, arrived, spilled, f.1⟩] }
  if isReserved r.ctxid then s else s.reply d r 4 0 0

/-! Faults (R86). -/

/-- Tickets abandoned in a lock that is no more (R103). -/
def State.forgetTickets (s : State) (a : Word) : State :=
  s.modSlice (homeSlice a) fun x => { x with abandoned := x.abandoned.filter fun y => y.1 != waitKey a }

/-- An object becomes FAULTED: its waiters are refused in arrival order (R86); the error that made it so counts it against the slice
(State.uncorrected). -/
def State.faultObject (s : State) (a : Word) (d : Nat) : State :=
  let sl := homeSlice a
  let es := s.waitsOf a
  let s := (s.setTag (s.sectorOf a) 8).modSlice sl fun x =>
    { x with waits := x.waits.filter fun e => e.addr != waitKey a }
  let s := es.foldl (fun s e => s.sendWake d e.req a Cause.objType) (s.forgetTickets a)
  (s.countWaits a).refillSoon sl

/-! Queue entries (R121). -/

/-- The addresses that a copy range's page checks are made at: its two ends. -/
def rangeEnds (b : Word) (n : Nat) : List Word := [b, b + word (n - 1)]

/-- Check 5 of R114 but for the pages: the copy address of a QPUT or QGET with entries of n bytes. -/
def ObjReq.copyFirst (r : ObjReq) (n : Nat) : Option Nat :=
  let b := r.operand
  let need := if r.op = 0x33 then 1 else 2
  let has := fun k => Nat.land (r.rights / k) need == need
  if bits b 63 56 ≠ 0 ∨ b.toNat % Nat.min n 64 ≠ 0 then some Cause.misaligned
  else if !has 1 || (n == 256 && !has 4) then some Cause.protection
  else none

/-- Check 5 of R114. -/
def State.copyCheck (s : State) (r : ObjReq) (n : Nat) : Option Nat :=
  match r.copyFirst n with
  | some c => some c
  | none =>
    if (rangeEnds r.operand n).any fun x =>
        bits x 55 46 != Config.moduleNumber
          || !s.pageGrants (homeDie x) (s.entryOf (homeDie x) (bits x 44 0)) (if r.op = 0x33 then 1 else 2) then
      some Cause.translation
    else none

/-- Check 6 of R114 for a copy: a QGET would write a typed sector. -/
def State.copyTyped (s : State) (r : ObjReq) (n : Nat) : Bool :=
  r.op == 0x34 && (List.range ((n + 63) / 64)).any fun i => s.tag (s.sectorOf (r.operand + word (64 * i))) != 0

/-- A dispatcher's own request (R139, R151): its QGET takes the entry into the die's table and names no copy range. -/
def ObjReq.byDispatcher (r : ObjReq) : Bool := r.ctxid / 2 == 0x7FFFFFF8

/-- The lines of n bytes at a copy address or in a ring. -/
def copyLines (b : Word) (n : Nat) : List Word := (List.range ((n + 63) / 64)).map (fun i => b + word (64 * i)) ++ [b + word (n - 1)]

/-- The lines that the copy of a request for a queue's entries reaches: those of its copy range, once its address has passed, and of the
entry's place in the ring (R121). -/
def ObjReq.copyAsks (r : ObjReq) (o : Obj) : List Word :=
  if o.tag = 5 ∧ (r.op = 0x33 ∨ r.op = 0x34) then
    copyLines (o.ringSlot (if r.op = 0x33 then o.d 3 else o.d 2)) o.esize ++
      (if o.esize = 8 ∨ r.byDispatcher ∨ (r.copyFirst o.esize).isSome then [] else copyLines r.operand o.esize)
  else []

/-- The causes of a copy, when the request arrives and again at its grant (R114). -/
def State.copyCause (s : State) (r : ObjReq) (o : Obj) : Option Nat :=
  if (r.op = 0x33 ∨ r.op = 0x34) ∧ o.esize ≠ 8 ∧ !r.byDispatcher then
    match s.copyCheck r o.esize with
    | some c => some c
    | none => if s.copyTyped r o.esize then some Cause.objStore else none
  else none

/-- n bytes copied between two global addresses of this module. -/
def State.copyRange (s : State) (src dst : Word) (n : Nat) : State :=
  let bs := (List.range n).map fun i => memGet s.mem (s.placeOf (src + word i))
  s.writePlaces (((List.range n).map fun i => s.placeOf (dst + word i)).zip bs)

/-- The source of a queue request's copy is poisoned (R411). -/
def State.ringPoison (s : State) (r : ObjReq) (o : Obj) : Bool :=
  let src := if r.op = 0x34 then o.ringSlot (o.d 2) else r.operand
  (r.op == 0x34 || (r.op == 0x33 && o.esize != 8)) && s.poisoned (s.placeOf src) o.esize

/-- The entry of a dispatcher's QGET in the die's table: the packet's 128 bytes and its queue sequence number (R138, R139). -/
def State.takePacket (s : State) (die idx place : Nat) (seq : Word) : State :=
  let ws := (List.range 16).map fun k => word (natOfBytes (memBytes s.mem (place + 8 * k) 8))
  s.modPacket die idx fun p => { p with words := ws, qseq := seq }

/-- An entry put into a dispatch queue is seen by its die's dispatcher (R139). -/
def State.noticePut (s : State) (r : ObjReq) : State :=
  if r.op = 0x33 ∧ s.parts.any (fun p => p.2.dq.toList.any fun a => a.setWidth 64 == r.addr) then
    s.postOnce 8 .dispatcherTake (homeDie r.addr)
  else s

/-- The copy of a granted QPUT or QGET, and the value of an 8-byte entry (R121). -/
def State.moveEntry (s : State) (r : ObjReq) (o : Obj) : State × Option Word :=
  if r.op = 0x33 then
    let slot := o.ringSlot (o.d 3)
    if o.esize = 8 then
      (s.writePlaces (((List.range 8).map fun i => s.placeOf slot + i).zip (bytesOfNat 8 r.operand.toNat)), none)
    else (s.copyRange r.operand slot o.esize, none)
  else if r.op = 0x34 then
    let slot := o.ringSlot (o.d 2)
    if r.byDispatcher then (s.takePacket (r.ctxid % 2) r.packet (s.placeOf slot) (o.d 2), none)
    else if o.esize = 8 then (s, some (word (natOfBytes (memBytes s.mem (s.placeOf slot) 8))))
    else (s.copyRange slot r.operand o.esize, none)
  else (s, none)

/-- The cycles of a request's copy: 2 for each 64 bytes, and for an entry of less (R126). DESIGN CHOICE, notes/assumptions/61.md. -/
def copyCycles (r : ObjReq) (o : Obj) : Nat :=
  if r.op = 0x33 ∨ r.op = 0x34 then 2 * ((o.esize + 63) / 64) else 0

/-! Grants. -/

/-- The parent requests of n local completions leave (R108). -/
def State.askParent (s : State) (d : Nat) (a : Word) (o : Obj) : Nat → State
  | 0 => s
  | n + 1 =>
    if o.parent = 0 then s
    else
      let r : ObjReq := { s.plainReq 0x30 o.parent a 0xFFFFFFFF 0 0 0 0 0 with expect := word (bits (o.d 4) 11 0) }
      let s := s.fresh.2
      let s := if bits o.parent 55 46 ≠ Config.moduleNumber then s.reply d r 3 a Cause.translation
               else let m := s.sendMsg (.request r); m.2.post (d + r.out) .objectRequestArrival (homeSlice r.addr) (m.1 + 1)
      s.askParent d a o n

/-- The member of a barrier request: PINDEX of a processor's own. -/
def ObjReq.member (r : ObjReq) : Word := if r.ctxid = 0xFFFFFFFF then r.expect else r.operand

/-- The tickets that nobody holds any more are passed over (R103). -/
def State.passAbandoned (s : State) (a : Word) : Nat → State
  | 0 => s
  | n + 1 =>
    let o := s.object a
    let sl := homeSlice a
    if (s.slice sl).abandoned.any fun x => x.1 == waitKey a && x.2 == o.d 1 then
      let s := s.modSlice sl fun x => { x with abandoned := x.abandoned.filter fun y => !(y.1 == waitKey a && y.2 == o.d 1) }
      (s.setObject a (o.set 1 (o.d 1 + 1))).passAbandoned a n
    else s

/-- The effect of a request whose condition holds, its result and the cycles it takes: its copy is complete before anything of it
is seen (R102). -/
def State.grant (s : State) (d : Nat) (r : ObjReq) (target : Word) (o : Obj) : State × Word × Nat :=
  let m := s.moveEntry r o
  let f := o.effect r.op r.member target
  let v := if r.op = 0x34 then m.2.getD (o.d 2) else f.2.1
  let s := (m.1.setObject r.addr f.1).askParent d r.addr f.1 f.2.2
  let s := if r.op = 0x32 then s.passAbandoned r.addr ((s.slice (homeSlice r.addr)).abandoned.length + 1) else s
  (s.noticePut r, v, copyCycles r o)

/-- The progress of an examination: its cycles so far, the spilled entries granted in it, and whether the pass granted anything. -/
structure Pass where
  time    : Nat
  spilled : Nat
  any     : Bool
  deriving DecidableEq, Repr

/-- The HBM read of a granted entry: one for each group of four spilled ones (R126). -/
def State.spillRead (s : State) (p : Pass) (e : WaitEntry) : Nat × State :=
  let sl := homeSlice e.req.addr
  if e.spilled && p.spilled % 4 == 0 then s.saggarRead (sl / Config.slices) (spillByte sl e.seq) 16 else (0, s)

/-- A spilled entry is poisoned, so that the object becomes FAULTED when it is read (R411). -/
def State.spillPoisoned (s : State) (e : WaitEntry) : Bool :=
  let sl := homeSlice e.req.addr
  e.spilled && s.saggarPoisoned (sl / Config.slices) (spillByte sl e.seq) 16

/-- The pass after a grant of an entry that took some cycles. -/
def Pass.granted (p : Pass) (e : WaitEntry) (n : Nat) : Pass := ⟨p.time + n, p.spilled + e.spilled.toNat, true⟩

/-- A request whose writes the fence of its domain's generation drops (R385): a context's, or one that an engine makes for it, of an
operation that writes. -/
def State.fencedReq (s : State) (r : ObjReq) : Bool :=
  !isReserved r.ctxid && r.eng != 3 && !([0x2A, 0x2C, 0x2F, 0x3A].contains r.op) && s.fenced (homeDie r.addr) r.dom r.domGen

/-- A dropped request is counted at its home (R385). -/
def State.countFenced (s : State) (r : ObjReq) : State := s.modSlice (homeSlice r.addr) fun x => { x with dropped := x.dropped + 1 }

/-- One entry examined (R98): granted, its arrival made, refused at its grant, or left; a fenced one goes without effect (R385,
notes/assumptions/34.md). An arrival that is only made takes no time of its own. DESIGN CHOICE, notes/assumptions/4.md. -/
def State.examineOne (s : State) (p : Pass) (e : WaitEntry) : State × Pass :=
  let a := e.req.addr
  let o := s.object a
  let sl := homeSlice a
  if o.tag = 8 ∨ !o.holds e.req.op e.req.member e.target e.arrived then (s, p)
  else if e.req.op = 0x30 ∧ !e.arrived then
    let r := o.arrive e.req.member.toNat
    let s := (s.setObject a r.1).askParent p.time a r.1 r.2.2
    (s.modSlice sl fun x =>
      { x with waits := x.waits.map fun y => if y.seq = e.seq then { y with arrived := true, target := r.2.1.setWidth 64 } else y },
     { p with any := true })
  else if s.fencedReq e.req then
    (((s.countFenced e.req).dropWait sl e.seq).sendWake (p.time + 2) e.req 0 0, { p with time := p.time + 2, any := true })
  else
    let v := s.visitNow (e.req.copyAsks o)
    let s := v.2
    let p := { p with time := p.time + v.1 }
    if s.ringPoison e.req o || s.spillPoisoned e then (s.faultObject a p.time, p)
    else
      match s.copyCause e.req o with
      | some c => ((s.dropWait sl e.seq).sendWake (p.time + 2) e.req e.req.operand c, { p with time := p.time + 2, any := true })
      | none =>
        let h := s.spillRead p e
        let g := h.2.grant p.time e.req e.target o
        let p := p.granted e (2 + g.2.2 + h.1)
        ((g.1.dropWait sl e.seq).sendWake p.time e.req g.2.1 0, p)

/-- Passes over an object's list until one grants nothing (R98). -/
def State.examine (s : State) (a : Word) (p : Pass) : Nat → State × Nat
  | 0 => (s.countWaits a, p.time)
  | n + 1 =>
    let r := (s.waitsOf a).foldl (fun (x : State × Pass) e => x.1.examineOne x.2 e) (s, { p with any := false })
    if r.2.any then r.1.examine a r.2 n else (r.1.countWaits a, r.2.time)

/-- An examination with passes enough: an entry makes at most an arrival and a grant. -/
def State.examineAll (s : State) (a : Word) (d : Nat) : State × Nat := s.examine a ⟨d, 0, false⟩ (2 * (s.waitsOf a).length + 2)

/-- KALL: every entry on the list as it stands is granted, SET unchanged (R122). -/
def State.grantAll (s : State) (a : Word) (d : Nat) : State × Nat :=
  if (s.waitsOf a).any s.spillPoisoned then (s.faultObject a d, d) else
  let r := (s.waitsOf a).foldl (fun (x : State × Pass) e =>
    let h := x.1.spillRead x.2 e
    let p := x.2.granted e (2 + h.1)
    ((h.2.dropWait (homeSlice a) e.seq).sendWake p.time e.req 0 0, p)) (s, ⟨d, 0, false⟩)
  (r.1, r.2.time)

/-! A request at its home. -/

/-- The page check of a request (R71, R114 check 3). -/
def State.pageOk (s : State) (r : ObjReq) : Bool :=
  let die := homeDie r.addr
  s.pageGrants die (s.entryOf die (bits r.addr 44 0)) (if 0x40 ≤ r.op then 3 else 8)

/-- OINIT's tests at the sector's own home (R115). -/
def State.initOk (s : State) (a operand : Word) (o : Obj) : Bool :=
  let typ := bits operand 3 0
  let n := memberSectors o.members
  let off := bits a 44 0
  bits operand 63 4 == 0 && o.tag == 0 && imageOk (homeDie a) typ o &&
    (typ != 2 ||
      ((List.range n).all (fun i => s.tag (s.sectorOf (a + word (64 * (i + 1)))) == 0)
        && off / 2 ^ 25 == (off + 64 * n) / 2 ^ 25
        && (o.parent == 0 || (bits o.parent 63 46 == Config.moduleNumber && o.parent.toNat % 64 == 0))))

/-- The home of a barrier's parent is to say whether PARENT and PINDEX are right (R115). -/
def Obj.asksParent (o : Obj) (operand : Word) : Bool := bits operand 3 0 == 2 && o.parent != 0

/-- PINDEX of a barrier. -/
def Obj.pindex (o : Obj) : Nat := bits (o.d 4) 11 0

/-- OINIT asks the parent's home: a request of the object processor that names the child and PINDEX; the OINIT waits for the answer
(R115). DEDUCED, notes/assumptions/27.md. -/
def State.askInit (s : State) (r : ObjReq) (o : Obj) : State :=
  let q : ObjReq := { s.plainReq 0x28 o.parent r.addr 0xFFFFFFFF 0 0 0 0 0 with expect := word o.pindex }
  let m := s.fresh.2.sendMsg (.request q)
  (m.2.modSlice (homeSlice r.addr) fun x => { x with asking := x.asking ++ [r] }).post (2 + q.out) .objectRequestArrival
    (homeSlice q.addr) (m.1 + 1)

/-- A sector becomes an object (R115). -/
def State.typeObject (s : State) (r : ObjReq) (o : Obj) : State :=
  ((s.forgetTickets r.addr).setObject r.addr (o.typed (bits r.operand 3 0))).reply 2 r 0 0 0

/-- The sectors after a header that OFREE clears: a barrier's members, or the members a FAULTED header still has (R116). -/
def State.freedMembers (s : State) (a : Word) (o : Obj) : Nat :=
  if o.tag = 2 then memberSectors o.members
  else if o.tag = 8 then
    let off := bits a 44 0
    ((List.range 16).takeWhile fun i =>
      s.tag (s.sectorOf (a + word (64 * (i + 1)))) == 3 && off / 2 ^ 25 == (off + 64 * (i + 1)) / 2 ^ 25).length
  else 0

/-- OFREE's effect (R116). -/
def State.freeObject (s : State) (a : Word) (o : Obj) : State :=
  ((s.setTag (s.sectorOf a) 0).writeLeads a (List.replicate (256 * s.freedMembers a o) 0) 0).forgetTickets a

/-- An untyped atomic at the home (R124, R125): the old word, and the word written, unless the domain's generation fences it (R385).
DEDUCED, notes/assumptions/37.md. -/
def State.atomic (s : State) (r : ObjReq) : Word × State :=
  let p := s.placeOf r.addr
  let n := if r.w32 then 4 else 8
  let w := 8 * n
  let old := natOfBytes (memBytes s.mem p n)
  let new := atomicNew r.op w old (r.operand.toNat % 2 ^ w) (r.expect.toNat % 2 ^ w)
  (if r.w32 then (BitVec.ofNat 32 old).signExtend 64 else word old,
   if s.fencedReq r then s.countFenced r else s.writePlaces (((List.range n).map fun i => p + i).zip (bytesOfNat n new)))

/-- Whether a request's reply carries its result (R94, R113). -/
def ObjReq.returns (r : ObjReq) : Bool := r.ret || alwaysRet r.op

/-- A request whose condition holds is granted and replied to, and the list is examined (R98). -/
def State.grantNow (s : State) (d : Nat) (r : ObjReq) (target : Word) (o : Obj) : State × Nat :=
  let s' := if r.op = 0x37 then s.grantAll r.addr d else (s, d)
  let g := s'.1.grant d r target o
  let d' := s'.2 + g.2.2
  (g.1.reply d' r 0 g.2.1 0).examineAll r.addr d'

/-- A request that must wait is listed, refused for want of room, or, with .nw, told so (R94, R98, R101). -/
def State.mustList (s : State) (d : Nat) (r : ObjReq) (target : Word) (arrived : Bool) (undo : State) : State × Nat :=
  match s.waitRoom r with
  | none => (undo.reply d r 3 r.addr Cause.objWaitfull, d)
  | some sp => ((s.register d r target arrived sp).examineAll r.addr d)

/-- BARW at its home (R119). -/
def State.doBarw (s : State) (d : Nat) (r : ObjReq) (o : Obj) : State × Nat :=
  if !o.holds 0x30 r.member 0 false then
    if r.nw then (s.reply d r 1 0 0, d) else s.mustList d r 0 false s
  else
    let x := o.arrive r.member.toNat
    let t := x.2.1.setWidth 64
    let s' := (s.setObject r.addr x.1).askParent d r.addr x.1 x.2.2
    if x.1.holds 0x30 r.member t true then (s'.reply d r 0 t 0).examineAll r.addr d
    else if r.nw then (s'.reply d r 2 t 0).examineAll r.addr d
    else s'.mustList d r t true s

/-- LTAKE at its home (R120): a ticket is taken at arrival. -/
def State.doLtake (s : State) (d : Nat) (r : ObjReq) (o : Obj) : State × Nat :=
  let t := o.d 0
  let taken := o.set 0 (t + 1)
  if o.d 1 = t then ((s.setObject r.addr taken).reply d r 0 t 0).examineAll r.addr d
  else if r.nw then (s.reply d r 1 0 0, d)
  else (s.setObject r.addr taken).mustList d r t false s

/-- An OREAD of a barrier's member sector goes on to the slice of the header, as a load does (R84).
DESIGN CHOICE, notes/assumptions/59.md. -/
def State.forwardRead (s : State) (dst : Nat) (r : ObjReq) : State :=
  let t := s.freeRange 85 115
  let m := t.2.sendMsg (.request r)
  m.2.post t.1 .objectRequestArrival dst (m.1 + 1)

/-- The checks and the effect of one request at its home, in the order of R114; the cycles the processor is busy (R126). -/
def State.objectRequest (s : State) (r : ObjReq) : State × Nat :=
  let a := r.addr
  let o := s.object a
  let no := fun (c : Nat) (tv : Word) => (s.reply 2 r 3 tv c, 2)
  if !s.pageOk r then no Cause.translation a
  else if 0x40 ≤ r.op then
    if o.tag ≠ 0 then no Cause.objStore a
    else if s.poisoned (s.placeOf a) 1 then no Cause.parityKill a
    else
      let x := s.atomic r
      (x.2.reply 2 r 0 x.1 0, 2)
  else if s.fencedReq r then ((s.countFenced r).reply 2 r 0 0 0, 2)
  else if o.tag ≠ 0 ∧ o.tag ≠ 8 ∧ s.objectPoisoned a o then
    ((s.faultObject a 2).reply 2 r 3 a Cause.objType, 2)
  else if r.op = 0x28 then
    if r.ctxid = 0xFFFFFFFF then
      if o.tag = 2 ∧ r.expect.toNat < o.members then (s.sendWake 2 r 0 0, 2) else no Cause.objType a
    else if s.poisoned (s.placeOf a) 64 then ((s.faultObject a 2).reply 2 r 3 a Cause.objType, 2)
    else if !s.initOk a r.operand o then no Cause.objType a
    else if o.asksParent r.operand then (s.askInit r o, 2)
    else (s.typeObject r o, 2)
  else if r.op = 0x29 then
    if o.keeps then no Cause.objType a else ((s.freeObject a o).reply 2 r 0 0 0, 2)
  else if r.op = 0x2A then
    let dst := s.holderSlice (s.sectorOf a)
    if dst ≠ homeSlice a ∧ dst ≠ s.arg.who then (s.forwardRead dst r, 2)
    else if o.tag = 0 ∧ s.poisoned (s.placeOf a) 64 then no Cause.parityKill a
    else (s.reply 2 r 0 (o.effect r.op r.operand 0).2.1 0, 2)
  else if o.refuses r.op r.member ∨ (r.eng ≠ 0 ∧ r.op = 0x33 ∧ o.esize ≠ 8) then no Cause.objType a
  else
    match s.copyCause r o with
    | some c => no c r.operand
    | none =>
      if r.op = 0x30 then s.doBarw 2 r o
      else if r.op = 0x31 then s.doLtake 2 r o
      else if !o.holds r.op r.operand 0 false then
        if r.nw then (s.reply 2 r 1 0 0, 2) else s.mustList 2 r 0 false s
      else if s.ringPoison r o then ((s.faultObject a 2).reply 2 r 3 a Cause.objType, 2)
      else s.grantNow 2 r 0 o

/-- The parent's answer for one phase: the child's PHASE advances, and its rule and list are looked at again (R107, R108). A child that
is poisoned becomes FAULTED (R411). -/
def State.parentPhase (s : State) (a : Word) : State × Nat :=
  let o := s.object a
  if o.tag ≠ 2 then (s, 0)
  else if s.objectPoisoned a o then (s.faultObject a 2, 2)
  else
    let r := (o.setPhases (o.phase + 1) o.local_).completeAll 4
    ((s.setObject a r.1).askParent 2 a r.1 r.2).examineAll a 2

/-- The parent's home has answered an OINIT: the sector is typed, or refused; an image that names another parent by now is asked for
anew (R115). -/
def State.initAnswer (s : State) (sl : Nat) (q : ObjReq) : State × Nat :=
  match (s.slice sl).asking.find? fun r => r.addr == q.operand with
  | none => (s, 0)
  | some r =>
    let s := s.modSlice sl fun x => { x with asking := x.asking.erase r }
    let o := s.object r.addr
    let no := (s.reply 2 r 3 r.addr Cause.objType, 2)
    if !s.initOk r.addr r.operand o then no
    else if o.asksParent r.operand && (o.parent != q.addr || word o.pindex != q.expect) then (s.askInit r o, 2)
    else if q.nw then no else (s.typeObject r o, 2)

/-- The parent's answer to a child's home: to an OINIT; a grant; or a refusal that makes the child FAULTED (R108, R111, R115). -/
def State.parentAnswer (s : State) (sl : Nat) (q : ObjReq) : State × Nat :=
  if q.lane = 0x28 then s.initAnswer sl q
  else if q.nw then (s.faultObject q.operand 2, 2) else s.parentPhase q.operand

/-- A request may not be served before an earlier access of its context, or on the hashed path of its core, that goes to its slice
(R245, R297), nor while such a one waits there for the rest of its store (R78). -/
def State.objectHeld (s : State) (sl : Nat) (r : ObjReq) : Bool :=
  r.eng == 0 && !isReserved r.ctxid && s.accs.any fun b =>
    b.parts.any fun q =>
      (match q.tgt with | .slice x _ => x == sl | _ => false) &&
        (q.waits
          || (decide (b.id < r.id) && b.gid == r.ctxid && b.gen == r.gen && (decide (q.stage = .accepted) || decide (q.stage = .sent)))
          || (b.seq != 0 && decide (b.seq ≤ r.id) && decide (q.stage = .sent) && b.core == s.at r.ctxid && !b.relaxed))

/-- A request waits in the object port's queue: for accesses before it, or for the answer to an OINIT of its sector (R115). -/
def State.objectWaits (s : State) (sl : Nat) (r : ObjReq) : Bool :=
  r.op != 0 && (s.objectHeld sl r || (s.slice sl).asking.any fun x => waitKey x.addr == waitKey r.addr)

/-- The pages that a request needs are looked up at their home slices: its object's, and, for a queue, those of its copy (R72, R73). The
processor takes no other request while it waits for a walk (R85). -/
def State.objectPages (s : State) (sl : Nat) (r : ObjReq) : Bool × State :=
  if r.op = 0 then (true, s)
  else
    let h := s.lookUpFor (sl + 1) [r.addr]
    if h.1 && h.2.pageOk r then h.2.lookUpFor (sl + 1) (r.copyAsks (h.2.object r.addr)) else h

/-- The object processor's next item: a parent's answer (op 0), or a request (R85); the cycles it takes. -/
def State.takeObject (s : State) (sl : Nat) (r : ObjReq) : State × Nat :=
  if r.op = 0 then s.parentAnswer sl r else s.objectRequest r

/-- OBJECT_REQUEST_ARRIVAL: a request reaches the slice's object port, or the processor, free again, takes the oldest one that does not
wait, once its pages are at hand (R73, R85). -/
def execObjectRequestArrival (s : State) : Host.Outcome State Fault Refusal :=
  let sl := s.arg.who
  let wait := fun (s : State) => (s.slice sl).objAt - s.cycle
  if s.arg.what ≠ 0 then
    match s.msg (s.arg.what - 1) with
    | some (.request r) =>
      let s := (s.dropMsg (s.arg.what - 1)).modSlice sl fun x => { x with objQ := x.objQ ++ [r] }
      .next (s.postOnce (wait s) .objectRequestArrival sl)
    | _ => .next s
  else if s.cycle < (s.slice sl).objAt then .next (s.postOnce (wait s) .objectRequestArrival sl)
  else
    match (s.slice sl).objQ.find? fun r => !s.objectWaits sl r with
    | none => .next (if (s.slice sl).objQ = [] then s else s.postOnce 1 .objectRequestArrival sl)
    | some r =>
      let look := s.objectPages sl r
      if !look.1 then .next (look.2.postOnce 16 .objectRequestArrival sl)
      else
        let rest := (s.slice sl).objQ.erase r
        let x := (look.2.modSlice sl fun x => { x with objQ := rest }).takeObject sl r
        let t := x.1.modSlice sl fun y => { y with objAt := s.cycle + x.2 }
        .next (if (t.slice sl).objQ = [] then t else t.postOnce x.2 .objectRequestArrival sl)

/-- PARENT_WAKE: the parent's WAKE, or its refusal, reaches the child's home and takes its place in the order of the object port (R85,
R108, R111, R115). -/
def execParentWake (s : State) : Host.Outcome State Fault Refusal :=
  let sl := s.arg.who
  match s.msg s.arg.what with
  | some (.wakeUp r _ cause) =>
    let t := (s.dropMsg s.arg.what).modSlice sl fun x => { x with objQ := x.objQ ++ [{ r with op := 0, lane := r.op, nw := cause != 0 }] }
    .next (t.postOnce ((s.slice sl).objAt - s.cycle) .objectRequestArrival sl)
  | _ => .next s

/-- SPILL_REFILL: spilled entries come back to freed storage in list order, up to four with one HBM read (R100, R126). -/
def execSpillRefill (s : State) : Host.Outcome State Fault Refusal :=
  let sl := s.arg.who
  let es := (s.slice sl).waits.filter (·.spilled)
  let r := es.foldl (fun (x : State × List Nat × Nat) e =>
    let y := x.1.slice sl
    let room := decide ((y.waits.filter fun w => !w.spilled).length < 4096)
      && (e.req.vf == 0 || decide (y.charged e.req.vf false < (x.1.part e.req.vf).wquota.toNat))
    if x.2.1.contains e.addr || !room || decide (4 ≤ x.2.2) then (x.1, e.addr :: x.2.1, x.2.2)
    else if x.1.spillPoisoned e then (x.1.faultObject e.req.addr 0, e.addr :: x.2.1, x.2.2)
    else
      ((x.1.modSlice sl fun z => { z with waits := z.waits.map fun w => if w.seq = e.seq then { w with spilled := false } else w }).countWaits
        e.req.addr, x.2.1, x.2.2 + 1)) (s, [], 0)
  .next (if r.2.2 = 4 then r.1.refillSoon sl else r.1)

/-! Removal (R103). -/

/-- A lock's ticket that its taker has given up (R103). -/
def State.abandon (s : State) (e : WaitEntry) : State :=
  if e.req.op = 0x31 then s.modSlice (homeSlice e.req.addr) fun x => { x with abandoned := x.abandoned ++ [(e.addr, e.target)] }
  else s

/-- The entries with a property are removed from every wait list (R103); the lists they leave are examined again. -/
def State.removeWaits (s : State) (p : WaitEntry → Bool) : State :=
  let es := s.slices.flatMap fun x => x.2.waits.filter p
  es.foldl (fun s e =>
    let a := e.req.addr
    let s := (s.abandon e).dropWait (homeSlice a) e.seq
    let s := if e.req.op = 0x31 then s.passAbandoned a ((s.slice (homeSlice a)).abandoned.length + 1) else s
    (s.examineAll a 2).1) s

/-! At the requester. -/

/-- What an object reply writes (R94). DEDUCED, notes/assumptions/11.md. -/
def ObjReq.resultWrites (r : ObjReq) (d : SReg) (code : Nat) (value : Word) : List RegWrite :=
  if r.nw then
    setS d (word code) ::
      (if code = 0 then (if r.returns then [setS (SReg.next d 1) value] else []) else [setS (SReg.next d 1) value])
  else if r.returns then [setS d value] else []

/-- A grant of an acquire-type request invalidates the data cache of the core (R97). -/
def State.acquire (s : State) (core : Nat) (r : ObjReq) (code : Nat) : State :=
  if acquireOp r.op ∧ code = 0 then s.invalidateL1 core else s

/-- The object reply of a context's request, or its WAKE: results, a refusal, or the news that it is listed (R94, R98, R102); one
for a context that is gone is dropped (R103). -/
def State.objectAnswer (s : State) (r : ObjReq) (code : Nat) (value : Word) (cause : Nat) : State :=
  let g := r.ctxid
  let c := s.ctx g
  if !s.sameCtx g r.gen then s
  else
    match c.wait with
    | .object id _ =>
      if id ≠ r.id then s
      else if code = 4 then (s.setCtx g { c with wait := .object id true }).kick (s.at g)
      else if code = 3 then s.refuseHeld g (cause, value)
      else (s.acquire (s.at g) r code).completeHeld g (r.resultWrites c.dest code value)
    | _ => s

/-- WINDOW_REPLY: the reply of a window request goes to host memory, then its MSI-X (R134). -/
def State.windowReply (s : State) (r : ObjReq) (w : WindowReq) (code : Nat) (value : Word) (cause : Nat) : State :=
  let y0 := word (code + 256 * cause + 2 ^ 32 * bits w.h5 31 0)
  let y1 : Word := if code ≠ 3 ∧ r.returns ∨ code = 2 then value else 0
  let s := if w.h4 = 0 then s
    else { s with hostMem := memWrite (memWrite s.hostMem w.h4.toNat (bytesOfNat 8 y0.toNat)) (w.h4.toNat + 8) (bytesOfNat 8 y1.toNat) }
  if bits w.h5 47 32 = 0 then s
  else { s with msix := (r.ctxid % 256, bits w.h5 47 32 - 1) :: s.msix }

/-- A packet of which no context and no task record is left completes (R144, R152). -/
def State.checkPacket (s : State) (p : Nat) : State :=
  match s.packet (p / 4096) (p % 4096) with
  | none => s
  | some q => if q.st = .running ∧ q.live = 0 ∧ q.records = 0 then s.postOnce 0 .packetComplete (p / 4096) (p % 4096) else s

/-- A packet holds one context less (R144). -/
def State.lessLive (s : State) (p : Option Nat) : State :=
  match p with
  | none => s
  | some p => (s.modPacket (p / 4096) (p % 4096) fun q => { q with live := q.live - 1 }).checkPacket p

/-- The answer to a join add (R169): a refusal becomes the packet's outcome. The packet counts the joining context until then. -/
def State.joinAnswer (s : State) (r : ObjReq) (code cause : Nat) : State :=
  let s := if code = 3 then
      s.modPacket (r.packet / 4096) (r.packet % 4096) fun q => { q with refused := some (q.refused.getD cause) }
    else s
  s.lessLive (some r.packet)

/-- The answer to a dispatcher's request (R139, R141, R144): its QGET's packet, the grant or refusal of its CWAIT, the end of its
completion add. -/
def State.dispatcherAnswer (s : State) (r : ObjReq) (code cause : Nat) : State :=
  let die := r.ctxid % 2
  match s.packet die r.packet with
  | none => s
  | some p =>
    if p.order ≠ r.lane then s
    else
      match r.op with
      | 0x2C =>
        if code = 3 ∧ cause = Cause.objWaitfull then s.post 4096 .depctrRetry die r.packet
        else s.post 0 .depctrGrant die r.packet (if code = 3 then cause else 0)
      | 0x2B => s.post 0 .packetComplete die r.packet (1 + (if code = 3 then cause else 0))
      | 0x34 => s.post 0 .dispatcherTake die (1 + r.packet) code
      | _ => s

/-- An answer to whoever asked, but for the engines. -/
def State.answerTo (s : State) (r : ObjReq) (code : Nat) (value : Word) (cause : Nat) : State :=
  match r.window with
  | some w => if code = 4 then s else s.windowReply r w code value cause
  | none =>
    if r.eng = 3 then s.joinAnswer r code cause
    else if r.ctxid = 0xFFFFFFFF then
      if code = 0 ∨ code = 3 then
        let m := s.sendMsg (.wakeUp r value (if code = 3 then cause else 0))
        m.2.post 0 .parentWake (homeSlice r.operand) m.1
      else s
    else if 0xFFFFFFF0 ≤ r.ctxid then (if r.ctxid < 0xFFFFFFF4 then s.dispatcherAnswer r code cause else s)
    else s.objectAnswer r code value cause

/-- OBJECT_REPLY: a home's reply reaches the requester (R94). -/
def execObjectReply (s : State) : Host.Outcome State Fault Refusal :=
  match s.msg s.arg.what with
  | some (.objReply r code value cause) => .next ((s.dropMsg s.arg.what).answerTo r code value cause)
  | _ => .next s

/-- A WAKE for a context of a core in hand-over is held (R423). -/
def State.wakeHeld (s : State) (r : ObjReq) : Bool :=
  r.window.isNone && r.eng == 0 && !isReserved r.ctxid
    && decide ((s.cluster (clusterOf (s.at r.ctxid))).leasedCore = some (s.at r.ctxid))

/-- WAKE: a grant reaches the waiter (R102). -/
def execWake (s : State) : Host.Outcome State Fault Refusal :=
  match s.msg s.arg.what with
  | some (.wakeUp r value cause) =>
    if s.wakeHeld r then .next (s.post 64 .wake s.arg.who s.arg.what)
    else .next ((s.dropMsg s.arg.what).answerTo r (if cause = 0 then 0 else 3) value cause)
  | _ => .next s

/-! Combining (R109, R350 to R352). -/

/-- The last-stage switch of the request butterfly that leads to a home: one for 16 slice ports (R348). Its outputs are the only ones at
which the model has packets wait. DESIGN CHOICE, notes/assumptions/36.md. -/
def ObjReq.switch (r : ObjReq) : Nat := homeSlice r.addr / 16

/-- A combining request is older than another, or as old and of a lower input port (R351). -/
def SwitchEntry.before (e b : SwitchEntry) : Bool := decide (e.left < b.left) || (e.left == b.left && decide (e.port < b.port))

/-- What a CADD.cmb is at its switch: the cycle at which it entered the network, from its path's time to here, and its input port.
DESIGN CHOICE, notes/assumptions/36.md. -/
def State.switchEntry (s : State) (id : Nat) (r : ObjReq) : SwitchEntry :=
  ⟨{ r with parts := [(id, r.operand)] }, false, s.cycle - (r.leg - 12), netPort r.origin.1⟩

/-- An entry with another's request merged in (R109, R351). -/
def SwitchEntry.merge (e x : SwitchEntry) : SwitchEntry :=
  let old := if x.before e then x else e
  { e with req := { e.req with operand := e.req.operand + x.req.operand, parts := e.req.parts ++ x.req.parts }, left := old.left, port := old.port }

/-- The switch's output where requests for a home leave. -/
def State.queueOut (s : State) (die out id : Nat) : State :=
  (s.modDie die fun d => { d with outQ := mapSet d.outQ out ((mapGet d.outQ out).getD [] ++ [id]) }).postOnce 6 .switchOutputGrant die out

/-- An entry of a wait buffer may still take a request in (R352). -/
def SwitchEntry.merges (e : SwitchEntry) (r : ObjReq) : Bool := !e.sent && e.req.addr == r.addr && decide (e.req.scope = r.scope)

/-- SWITCH_COMBINE: a CADD.cmb reaches a switch: it merges into an entry that still waits, takes an entry of its own, or, with
the buffer full, travels as any request (R352). DESIGN CHOICE, notes/assumptions/36.md. -/
def execSwitchCombine (s : State) : Host.Outcome State Fault Refusal :=
  let die := s.arg.who
  let id := s.arg.what
  match s.msg id with
  | some (.request r) =>
    let d := s.die die
    match d.switchQ.find? fun e => e.merges r with
    | some e =>
      .next (s.modDie die fun d => { d with switchQ := d.switchQ.map fun x => if x = e then e.merge (s.switchEntry id r) else x })
    | none =>
      if (d.switchQ.filter fun e => e.req.switch == r.switch).length < 64 then
        .next ((s.modDie die fun d => { d with switchQ := d.switchQ ++ [s.switchEntry id r] }).queueOut die (homeSlice r.addr) r.id)
      else .next (s.post 12 .objectRequestArrival (homeSlice r.addr) (id + 1))
  | _ => .next s

/-- A combining entry leaves its switch as one request. -/
def State.sendEntry (s : State) (die : Nat) (e : SwitchEntry) : State :=
  let s := s.modDie die fun d => { d with switchQ := d.switchQ.map fun x => if x.req.id = e.req.id then { x with sent := true } else x }
  let m := s.sendMsg (.request e.req)
  m.2.post 6 .objectRequestArrival (homeSlice e.req.addr) (m.1 + 1)

/-- The oldest of some entries waiting at an output (R351). -/
def oldestEntry (es : List SwitchEntry) : Option SwitchEntry :=
  es.foldl (fun best e => match best with | none => some e | some b => if e.before b then some e else some b) none

/-- The parts of a combined request, in the order in which they entered: each receives the old value plus the parts before it, or
the refusal (R109). -/
def State.splitReply (s : State) (code : Nat) (old : Word) (cause : Nat) : List (Nat × Word) → Word → State
  | [], _ => s
  | (id, x) :: rest, sum =>
    let s := match s.msg id with
      | some (.request r) =>
        let m := (s.dropMsg id).sendMsg (.objReply r code (if code = 3 then old else old + sum) cause)
        m.2.post (r.back - 12) .objectReply r.ctxid m.1
      | _ => s
    s.splitReply code old cause rest (sum + x)

/-- COMBINED_REPLY_SPLIT: the reply passes back through the switch, and the entry ends (R109, R352). -/
def execCombinedReplySplit (s : State) : Host.Outcome State Fault Refusal :=
  let die := s.arg.who
  match s.msg s.arg.what with
  | some (.objReply r code value cause) =>
    let s := (s.dropMsg s.arg.what).modDie die fun d => { d with switchQ := d.switchQ.filter fun e => e.req.id != r.id }
    .next (s.splitReply code value cause r.parts 0)
  | _ => .next s

/-- A combining entry whose residue check fails releases its parts uncombined (R409). -/
def State.dissolve (s : State) (die : Nat) (e : SwitchEntry) : State :=
  let s := s.modDie die fun d => { d with switchQ := d.switchQ.filter fun x => x.req.id != e.req.id, combErrs := d.combErrs + 1 }
  e.req.parts.foldl (fun s p =>
    match s.msg p.1 with
    | some (.request r) => s.post 12 .objectRequestArrival (homeSlice r.addr) (p.1 + 1)
    | _ => s) s

/-! The object window (R132, R133). -/

/-- The flags an operation accepts: .nw and .ret (R113). CADD alone takes .cmb. -/
def takesNw (op : Nat) : Bool := [0x2C, 0x2E, 0x2F, 0x30, 0x31, 0x33, 0x34, 0x35, 0x38, 0x39, 0x3A].contains op

/-- The operations that may ask for a result (R113). -/
def takesRet (op : Nat) : Bool := [0x2B, 0x2C, 0x2D, 0x2E, 0x2F, 0x30, 0x31, 0x32, 0x33].contains op

/-- A window request is malformed (R132, R133). -/
def windowIllegal (w : WindowReq) : Bool :=
  let op := bits w.h0 6 0
  let atomic := decide (0x40 ≤ op)
  !(decide (0x28 ≤ op) && decide (op ≤ 0x3A) || atomic && decide (op ≤ 0x47))
    || bits w.h0 7 7 != 0 || bits w.h0 63 14 != 0 || bits w.h1 63 57 != 0 || bits w.h5 63 48 != 0 || w.h6 != 0 || w.h7 != 0
    || (if atomic then decide (1 < bits w.h0 13 11) else bits w.h0 13 11 != 0)
    || (bits w.h0 8 8 == 1 && !takesNw op) || (bits w.h0 9 9 == 1 && !takesRet op) || (bits w.h0 10 10 == 1 && op != 0x2B)
    || ([0x29, 0x31, 0x32, 0x35, 0x36, 0x37].contains op && w.h2 != 0) || (op != 0x42 && w.h3 != 0)

/-- The rights that a partition's host ranges grant HDOM at an address (R133, R136). -/
def State.hostRights (s : State) (v : Nat) (a : Word) : Rights :=
  let p := s.part v
  p.hrange.toList.foldl (fun r e => Nat.lor r (plbEntryRights e p.hdom a)) 0

/-- The request that a window write makes. -/
def State.windowObj (s : State) (v : Nat) (w : WindowReq) : ObjReq :=
  let op := bits w.h0 6 0
  let r4 := fun b => s.hostRights v b % 4
  { s.plainReq op w.h1 w.h2 (0xFFFFFF00 + v) (BitVec.ofNat 12 Config.moduleNumber) 0 0 v 0 with
    expect := w.h3, ret := bits w.h0 9 9 == 1, nw := bits w.h0 8 8 == 1, w32 := decide (0x40 ≤ op) && bits w.h0 13 11 == 1
    rights := r4 w.h2 + 4 * r4 (w.h2 + 255), dom := (s.part v).hdom, window := some w }

/-- A BAR4 write of a function has arrived and waits for a walk of its page (R135). -/
def State.hostWrites (s : State) (v : Nat) : Bool :=
  s.agenda.any fun d => decide (d.ev = .bar4Write) && d.arg.who == v && decide (0 < d.arg.val)

/-- OBJECT_WINDOW_REQUEST: a write to the request slots of a function's BAR0: dropped and counted, refused in its reply, or sent
to its home (R128, R133). -/
def execObjectWindowRequest (s : State) : Host.Outcome State Fault Refusal :=
  let v := s.arg.who
  match s.arg.ext with
  | .window w =>
    if s.arg.val ≠ 64 ∨ s.arg.what % 64 ≠ 0 ∨ w.h4.toNat % 16 ≠ 0 then .next (s.countErr v)
    else
      let r := s.windowObj v w
      let op := r.op
      let a := w.h1
      let s := s.fresh.2
      let align := if 0x40 ≤ op then (if r.w32 then 4 else 8) else 64
      let need := if 0x40 ≤ op then 3 else 8
      if windowIllegal w then .next (s.windowReply r w 3 0 Cause.illegalOp)
      else if bits a 56 56 = 1 ∨ a.toNat % align ≠ 0 then .next (s.windowReply r w 3 0 Cause.misaligned)
      else if !Rights.cover (s.hostRights v a) need then .next (s.windowReply r w 3 0 Cause.protection)
      else if s.hostWrites v then .next (s.post 16 .objectWindowRequest v s.arg.what s.arg.val s.arg.ext)
      else .next (s.sendRequest r)
  | _ => .next (s.countErr v)

end Sys2Proof.Machine
end

