-- ==== Sys2Proof/Machine/Delivery.lean ====
section
/-!
DEFINITION. Messages at their destination, the answers to SEND, arrival-match entries, the refilling of an inbox, deadlines and the
watchdog (spec/16_messages_and_networks.md R337 to R347, spec/06_contexts_and_placement.md R176,
spec/18_traps_and_preemption.md R376).
-/
namespace Sys2Proof.Machine

/-! Messages. -/

/-- The answer to a SEND leaves for the sender: the status, and the cause of a refusal (R343). -/
def State.answerSend (s : State) (id sender dest status cause : Nat) : State :=
  let t := sendTrip (coreOf sender) (coreOf dest)
  s.post (t - t / 2) .sendAnswer sender id (status + 256 * cause)

/-- A message whose context number is Free is discarded and counted (R340). -/
def State.discard (s : State) (core : Nat) : State := s.modCore core fun k => { k with discarded := k.discarded + 1 }

/-- The refusal of a USER message at its core, in the order of R343. -/
def State.refuseUser (s : State) (dest sender : Nat) : Option Nat :=
  if dest / 2 ^ 22 ≠ Config.moduleNumber then some Cause.protection
  else if !(s.core (s.at dest)).present then some Cause.absentCore
  else if !(s.ctx sender).prv ∧ (s.ctx dest).st ≠ .free ∧ (s.ctx sender).domain ≠ (s.ctx dest).domain then some Cause.domain
  else none

/-- A USER message at its core (R343). -/
def State.arriveUser (s : State) (core id dest : Nat) (m : Message) (sender : Nat) (nw : Bool) : State :=
  match s.refuseUser dest sender with
  | some c => (s.dropMsg id).answerSend id sender dest 0 c
  | none =>
    if (s.ctx dest).st = .free then ((s.dropMsg id).discard core).answerSend id sender dest 3 0
    else
      match s.acceptMessage core m with
      | some t => ((t.dropMsg id).noticeMessage dest).answerSend id sender dest 0 0
      | none => if nw then (s.dropMsg id).answerSend id sender dest 1 0 else s.post 16 .messageArrival core id

/-- The source of a posted message learns that it was taken: a matrix unit, or a copy lane, whose command then ends, or the queue of
either, in which a removed command kept its entry (R341). -/
def State.tellSource (s : State) (src : Nat) (m : Message) : State :=
  if src = 0 then s.post 0 .mxCommandStart m.seq 1 (bits m.w1 31 0)
  else if src = 1 then s.post 0 .cpLaneStart (clusterOf (coreOf (bits m.w1 31 0))) (m.seq + 1) (bits m.w1 31 0)
  else if src = 5 then s.post 0 .cpLaneStart (clusterOf (s.at (bits m.w1 31 0))) (16 + bits m.w2 31 0) (bits m.w1 31 0)
  else if src = 6 then s.post 0 .mxCommandStart m.seq (16 + bits m.w2 31 0) (bits m.w1 31 0)
  else s

/-- A message of an engine, the dispatcher, the Assay or a match entry at its core (R340, R341). -/
def State.arrivePosted (s : State) (core id dest : Nat) (m : Message) (src : Nat) : State :=
  if dest / 2 ^ 22 ≠ Config.moduleNumber ∨ (s.ctx dest).st = .free then ((s.dropMsg id).discard core).tellSource src m
  else
    match s.acceptMessage core m with
    | some t => ((t.dropMsg id).noticeMessage dest).tellSource src m
    | none => s.post 64 .messageRetry core id

/-- A message at a core; one for a context that was moved goes on to its new core (R425), one for a core in hand-over is held
(R423). -/
def State.arriveMessage (s : State) (id : Nat) : State :=
  let held := match s.msg id with
    | some (.user dest _ _ _) | some (.posted dest _ _) => decide ((s.cluster (clusterOf (s.at dest))).leasedCore = some (s.at dest))
    | _ => false
  if held then s.post 64 .messageArrival s.arg.who id
  else
  match s.msg id with
  | some (.user dest m sender nw) => s.arriveUser (s.at dest) id dest m sender nw
  | some (.posted dest m src) => s.arrivePosted (s.at dest) id dest m src
  | _ => s

/-- MESSAGE_ARRIVAL: a message reaches its core: refused, discarded, accepted, or kept waiting (R339, R340, R343). -/
def execMessageArrival (s : State) : Host.Outcome State Fault Refusal := .next (s.arriveMessage s.arg.what)

/-- MESSAGE_RETRY: a message that could not be accepted is presented again (R341). -/
def execMessageRetry (s : State) : Host.Outcome State Fault Refusal := .next (s.arriveMessage s.arg.what)

/-- The word s_a of a SEND that is held (R343). -/
def sendOperand (dest : Nat) (w0 : Word) : Word := word (dest + 2 ^ 32 * bits w0 63 32)

/-- SEND_ANSWER: the destination core's answer reaches the sender (R343). -/
def execSendAnswer (s : State) : Host.Outcome State Fault Refusal :=
  let g := s.arg.who
  let c := s.ctx g
  match c.held with
  | some (.send dest w0 _ _ nw) =>
    if c.wait ≠ .answer ∨ c.answer ≠ some s.arg.what then .next s
    else if 256 ≤ s.arg.val then .next (s.refuseHeld g (s.arg.val / 256, sendOperand dest w0))
    else .next (s.completeHeld g (if nw then [setS c.dest (word s.arg.val)] else []))
  | _ => .next s

/-! Arrival matches (R345). -/

/-- MATCH_FIRE: an entry that reached its length fires (R345). -/
def State.fireMatch (s : State) (core idx : Nat) (m : MatchEntry) : State :=
  let s := s.modCore core fun k => { k with arrivals := mapErase k.arrivals idx }
  let c := s.ctx m.named
  if c.st = .free then s
  else if !m.wake then
    s.postMessage 0 m.named 4 (word (0x20 + 2 ^ 32 * m.tag.toNat)) (word m.owner) (word m.count) (word idx)
  else
    match c.wait with
    | .waitt _ => s.awaken m.named
    | _ => s.setCtx m.named { c with wake := true }

/-- ARRIVAL_COUNT: the bytes of a unit with a tag are in a core's banks, and its entry counts them (R281, R345). -/
def execArrivalCount (s : State) : Host.Outcome State Fault Refusal :=
  let core := s.arg.who
  match (s.core core).arrivals.find? fun m => m.2.tag.toNat == s.arg.what with
  | none => .next s
  | some (i, m) =>
    let m := { m with count := m.count + s.arg.val }
    if m.length ≤ m.count then .next (s.fireMatch core i m)
    else .next (s.modCore core fun k => { k with arrivals := mapSet k.arrivals i m })

/-- The arrival-match entries that a context registered gone from a core. -/
def Core.dropMatches (g : Nat) (k : Core) : Core := { k with arrivals := k.arrivals.filter fun m => m.2.owner != g }

/-- A context's messages gone from a core's inbox. -/
def Core.dropInbox (g : Nat) (k : Core) : Core := { k with inbox := k.inbox.filter fun m => m.dest != g }

/-- The cores of a swapped cluster's state changed. -/
def Shadow.mapCores (f : Core → Core) (x : Shadow) : Shadow := { x with cores := x.cores.map fun k => (k.1, f k.2) }

/-- The arrival-match entries that a context registered are freed, in shadow storage too (R345, R381). -/
def State.dropMatches (s : State) (g : Nat) : State :=
  (s.modCore (s.at g) (Core.dropMatches g)).modShadow g (Shadow.mapCores (Core.dropMatches g))

/-- A context's messages in an inbox that stands in shadow storage. -/
def State.shadowInbox (s : State) (g : Nat) : List Message :=
  if s.swappedOut g then
    (s.cluster (clusterOf (s.at g))).shadow.flatMap fun x => x.cores.flatMap fun k => k.2.inbox.filter fun m => m.dest == g
  else []

/-- A context's messages are discarded, in the inbox, in one in shadow storage and in the saggar (R174, R381); how many they were. -/
def State.dropMessages (s : State) (g : Nat) : Nat × State :=
  let core := s.at g
  let out := s.shadowInbox g
  let s := s.modShadow g (Shadow.mapCores (Core.dropInbox g))
  let k := s.core core
  let inb := k.inbox.filter fun m => m.dest == g
  let sag := k.saggarMsgs.filter fun m => m.dest == g
  let s := s.setCore core
    { k with inbox := k.inbox.filter fun m => m.dest != g, saggarMsgs := k.saggarMsgs.filter fun m => m.dest != g }
  let s := s.chargeSaggar g (-(32 * sag.length : Nat))
  let s := if inb = [] then s else s.startRefill core
  (inb.length + out.length + sag.length, s)

/-! Refilling an inbox. -/

/-- The oldest spilled message of a core whose context is not Swapped comes in (R339, R340); a poisoned one kills its context (R409). -/
def State.bringIn (s : State) (core : Nat) : Option State :=
  let k := s.core core
  if 64 ≤ k.inbox.length then none
  else
    match k.saggarMsgs.find? fun m => !s.swappedOut m.dest with
    | none => none
    | some m =>
      some (((s.setCore core { k with inbox := k.inbox ++ [m], saggarMsgs := k.saggarMsgs.filter fun x => x != m }).chargeSaggar
        m.dest (-32)).poisonKill m.dest m.seq)

/-- Up to n spilled messages come in. -/
def State.bringAll (s : State) (core : Nat) : Nat → State
  | 0 => s
  | n + 1 => match s.bringIn core with | none => s | some t => t.bringAll core n

/-- INBOX_REFILL: a group of up to four spilled messages enters the inbox (R339, R347); or a RECV's oldest message has been read
from the saggar, and it looks again (R344). -/
def execInboxRefill (s : State) : Host.Outcome State Fault Refusal :=
  let core := s.arg.who
  if s.arg.what = 0 then
    let t := s.bringAll core 4
    .next (if (t.bringIn core).isSome then t.startRefill core else t)
  else
    let g := s.arg.what - 1
    if (s.ctx g).wait ≠ .recv then .next s
    else
      let m := ((s.core core).saggarMsgs.find? fun m => m.dest == g).elim 0 (·.seq)
      .next (((s.poisonKill g m).modCtx g fun c => { c with phase := 2 }).awaken g)

/-! Deadlines (R176). -/

/-- WAITT_DEADLINE: the deadline of a context's WAITT passes (R176); after a change of the clock it is waited for anew. -/
def execWaittDeadline (s : State) : Host.Outcome State Fault Refusal :=
  let g := s.arg.who
  let c := s.ctx g
  match c.wait with
  | .waitt d =>
    if c.st = .ready ∨ c.st = .running ∨ c.st = .free then .next s
    else if s.passed (dieOfCore (s.at g)) d then .next (s.awaken g)
    else .next (s.postDeadline g d)
  | _ => .next s

/-! The watchdog (R376). -/

/-- The wait-list entry of a context's request. -/
def State.entryOfWait (s : State) (g req : Nat) : Option WaitEntry :=
  (s.slices.flatMap fun x => x.2.waits).find? fun e => e.req.id == req && e.req.ctxid == g

/-- The home of the object that a context waits for lies under a lease, wherever its request stands. -/
def State.homeLeased (s : State) (g : Nat) : Bool :=
  match (s.ctx g).wait with
  | .object _ _ => (s.slice (homeSlice (s.ctx g).askAddr)).leased
  | _ => false

/-- COUNT is frozen (R376). -/
def State.countFrozen (s : State) (g : Nat) : Bool :=
  let c := s.ctx g
  decide (c.st = .swapped) || s.swappedOut g || s.homeLeased g ||
    (c.packet.isSome && s.ctxs.any fun x => x.2.packet == c.packet && decide (x.2.st ≠ .free) && (x.2.uh || x.2.sh))

/-- WATCHDOG is raised: the waiting instruction writes nothing, and the context takes the cause at its next turn, TRAPPC naming
the instruction (R376). -/
def State.bark (s : State) (g : Nat) (tval : Word) (atHeld : Bool) : State :=
  let s := s.passTwin g (.cause Cause.watchdog tval true)
  let c := s.ctx g
  let c : Ctx := { c with
    async := c.async ++ [Cause.watchdog], asyncTval := tval, pc := if atHeld then c.heldPc else c.pc
    twin := if atHeld then c.twin.map fun t => { t with issued := t.issued - 1 } else c.twin
    heldTail := none, held := none, answer := none, latch := none, marker := false, wait := .none, phase := 0 }
  if c.st = .parked then s.setCtx g { c with st := .running, readyAt := s.cycle }
  else if s.swappedOut g then s.setCtx g { c with arrived := true }
  else (s.setCtx g c).makeReady g rankWoken

/-- A request has not been served yet: it is on its way, waits for a walk, or stands in its home's queue. -/
def State.unserved (s : State) (req : Nat) : Bool :=
  s.net.any (fun m => match m.body with | .request r => r.id == req | _ => false)
    || s.slices.any fun x => (x.2.objQ ++ x.2.asking).any fun r => r.op != 0 && r.id == req

/-- A removal of a context's object wait arrives at the home: the entry goes, unless it was granted; a removal that came ahead of its
request waits for it (R103, R376). -/
def State.withdraw (s : State) (g req at_ : Nat) : State :=
  match s.entryOfWait g req with
  | none => if s.unserved req then s.post 2 .watchdogExpiry g at_ 1 else s
  | some e =>
    let s := s.removeWaits fun x => x.req.id == req && x.req.ctxid == g
    s.post e.req.back .watchdogExpiry g at_ (2 + 4 * e.req.addr.toNat)

/-- COUNT reaches LIMIT: the wait is withdrawn (R376). -/
def State.expire (s : State) (g at_ : Nat) : State :=
  let c := s.ctx g
  match c.wait with
  | .recv => s.bark g 0 false
  | .mxq | .cpq => s.bark g 0 true
  | .object req _ =>
    match s.entryOfWait g req with
    | some e => s.post e.req.leg .watchdogExpiry g at_ 1
    | none => s.post 130 .watchdogExpiry g at_ 1
  | _ => s

/-- WATCHDOG_EXPIRY: a period of 16 cycles of a counted wait ends, and at LIMIT the wait is withdrawn (R376). The steps of a
removal follow: at the home (1), and back at the core (2 and the object's address). -/
def execWatchdogExpiry (s : State) : Host.Outcome State Fault Refusal :=
  let g := s.arg.who
  let at_ := s.arg.what
  let c := s.ctx g
  if c.parkedAt ≠ at_ ∨ !c.wait.counted ∨ c.resuming then .next s
  else if !(c.st = .parked ∨ c.st = .cached ∨ c.st = .spilled ∨ c.st = .swapped) then .next s
  else if s.arg.val = 0 then
    if s.countFrozen g then .next (s.post 16 .watchdogExpiry g at_)
    else
      let s := s.setCtx g { c with wcount := c.wcount + 1 }
      if c.wcount + 1 = c.wlimit ∧ c.wlimit ≠ 0 then .next (s.expire g at_) else .next (s.post 16 .watchdogExpiry g at_)
  else
    match c.wait with
    | .object req _ => if s.arg.val = 1 then .next (s.withdraw g req at_) else .next (s.bark g (word (s.arg.val / 4)) true)
    | _ => .next s

end Sys2Proof.Machine
end

