-- ==== Sys2Proof/Machine/Scheduler.lean ====
section
/-!
DEFINITION. Contexts coming into being and into slots: creation, SPAWN's arrival, slot fills, displacement, pre-emption, promotion
and stealing (spec/06_contexts_and_placement.md R147 to R168, R172, spec/21_reliability_and_leases.md R417).
-/
namespace Sys2Proof.Machine

/-! Creation. -/

/-- The lowest context number that no context of a core holds (R150). -/
def State.freeNum (s : State) (core : Nat) : Option Nat :=
  (List.range Config.contexts).find? fun n => (s.ctx (gidOf core n)).st == .free

/-- A slot without occupant and reservation. -/
def SlotUse.empty (u : SlotUse) : Bool := u.occ.isNone && u.reserved.isNone

/-- The free slots of a core, ascending. -/
def Core.freeSlots (k : Core) : List Nat :=
  if k.present then (List.range Config.slots).filter fun i => (k.slot i).empty else []

/-- A new context with what its core gives it: its generation tag, its domain's generation and the core's default vector (R150, R368,
R385). -/
def State.bornAt (s : State) (core num : Nat) (c : Ctx) : Ctx :=
  let k := s.core core
  { c with
    moved := none, gen := k.genTag num, domGen := s.domGenOf (dieOfCore core) c.domain, lastCore := core, tvecS := k.svec }

/-- A context enters a slot; it issues no earlier than d cycles from now, with the data cache invalidated (R141, R158, R164, R172).
It is Running (R148): one whose awaited event came, or that has a marker to raise, does that at its first turn (R179, R189). One of a
moved pair that still waits is parked (R425). -/
def State.occupy (s : State) (g slot d : Nat) : State :=
  let core := s.at g
  let u := (s.core core).slot slot
  let at_ := Nat.max (s.cycle + d) u.freeAt
  let s := s.modCore core fun k => (k.setSlot slot { u with occ := some g, reserved := none }).invalidate
  let c := s.ctx g
  let come := c.arrived
  let c := { c with slot := some slot, enteredAt := s.cycle, readyAt := at_, latch := none, fills := [], ufetch := [], leaves := false
                    arrived := false }
  let s :=
    if c.wait = .none ∧ !c.marker then s.setCtx g { c with st := .running }
    else if c.wait = .none ∨ come then
      (s.setCtx g { c with st := .running, resuming := true }).post (turnAt slot at_ - s.cycle) .parkResume g
    else s.setCtx g { c with st := .parked }
  s.postFetch g at_

/-- A context enters a core's ready queue with its image in the cache (R155, R159). -/
def State.enqueueNew (s : State) (g : Nat) : State := (s.imageIn g).makeReady g rankNew

/-- A queue entry, an image and a number are free for one more Ready context (R155, R172). -/
def State.queueRoom (s : State) (core : Nat) : Bool := decide ((s.core core).ready.length < 256) && s.imageRoom core

/-- A core can take a new context now: one a cycle (R157), and one slot filled a cycle (R158). -/
def State.accepts (s : State) (core : Nat) : Bool :=
  decide ((s.core core).acceptAt ≤ s.cycle) && decide ((s.core core).fillAt ≤ s.cycle)

/-- A core took a new context in this cycle. -/
def State.accepted (s : State) (core : Nat) : State := s.modCore core fun k => { k with acceptAt := s.cycle + 1 }

/-- A core filled a slot in this cycle; it looks for the next one in the next (R158). -/
def State.filled (s : State) (core : Nat) : State := (s.modCore core fun k => { k with fillAt := s.cycle + 1 }).kick core

/-- The packet of a context counts it (R152). -/
def State.countLive (s : State) (p : Option Nat) (n : Nat) : State :=
  match p with
  | none => s
  | some p => s.modPacket (p / 4096) (p % 4096) fun q => { q with live := q.live + n }

/-- A new context at a core: in the lowest free slot, else Ready; none when the core has no room for it (R153, R155, R172). -/
def State.createOne (s : State) (core : Nat) (c : Ctx) : Option (Nat × State) :=
  match s.freeNum core with
  | none => none
  | some n =>
    let g := gidOf core n
    let t := ((s.setCtx g { s.bornAt core n c with st := .ready }).countLive c.packet 1).accepted core
    match (s.core core).freeSlots with
    | k :: _ => some (g, (t.occupy g k 32).filled core)
    | [] => if (s.core core).present && s.queueRoom core then some (g, t.enqueueNew g) else none

/-! Twin pairs (R154, R195, R417). -/

/-- The twin part of a new context. -/
def newTwin (c : Ctx) (leader : Bool) (partner : Nat) : TwinInfo :=
  ⟨leader, partner, [], 0, 0, 0, 0, 0, c.snapshot, false, [], false, false, none, [], []⟩

/-- The slots free on both cores of a pair, ascending (R154). -/
def State.pairSlots (s : State) (lead : Nat) : List Nat :=
  (s.core lead).freeSlots.filter fun k => (s.core (lead + 1)).freeSlots.contains k

/-- Both contexts of a pair enter their slot in the same cycle (R154). -/
def State.occupyPair (s : State) (g h slot d : Nat) : State :=
  (((s.occupy g slot d).occupy h slot d).filled (s.at g)).filled (s.at h)

/-- The images of a new pair fit its cores: both cores' evicted images against the one quota (R161). -/
def State.pairRoom (s : State) (lead : Nat) : Bool :=
  let full := fun (core : Nat) => decide (48 ≤ (s.core core).tcc.length)
  s.imageRoom lead && s.imageRoom (lead + 1) && (!(full lead && full (lead + 1)) || s.saggarRoom lead 4096)

/-- A new pair at an even core: in the lowest slot free on both cores, else as one entry of the leading core's queue. -/
def State.createPair (s : State) (lead : Nat) (c : Ctx) : Option (Nat × State) :=
  match s.freeNum lead, s.freeNum (lead + 1) with
  | some n, some m =>
    let g := gidOf lead n
    let h := gidOf (lead + 1) m
    let a := s.bornAt lead n c
    let b := s.bornAt (lead + 1) m c
    let a := { a with st := .ready, twinned := true, twin := some (newTwin a true h) }
    let b := { b with st := .ready, twinned := true, twin := some (newTwin b false g) }
    let t := ((((s.setCtx g a).setCtx h b).countLive c.packet 2).accepted lead).accepted (lead + 1)
    match s.pairSlots lead with
    | k :: _ => some (g, t.occupyPair g h k 32)
    | [] =>
      if (s.core lead).present && (s.core (lead + 1)).present && s.queueRoom lead && s.pairRoom lead then
        some (g, (t.imageIn h).enqueueNew g)
      else none
  | _, _ => none

/-- A new context, or pair, at a core. -/
def State.create (s : State) (core : Nat) (c : Ctx) : Option (Nat × State) :=
  if c.twinned then s.createPair (core / 2 * 2) c else s.createOne core c

/-- The core, or both cores of the pair, can take the new context now (R157). -/
def State.mayCreate (s : State) (core : Nat) (twinned : Bool) : Bool :=
  if twinned then s.accepts (core / 2 * 2) && s.accepts (core / 2 * 2 + 1) else s.accepts core

/-! SPAWN (R172). -/

/-- SPAWN_CREATION: a creation reaches its core, which takes the context or is busy, one creation a cycle (R157, R172). While the
core's partition halts, or is swapped out, it waits at its source (R379). -/
def execSpawnCreation (s : State) : Host.Outcome State Fault Refusal :=
  let core := s.arg.who
  let id := s.arg.what
  match s.msg id with
  | some (.create trip _ c spawner) =>
    if (s.cluster (clusterOf core)).halted ∨ s.swappedOut spawner then .next (s.post 64 .spawnCreation core id)
    else if !s.mayCreate core c.twinned then .next (s.post 1 .spawnCreation core id)
    else
      let back := trip - trip / 2
      match (s.dropMsg id).create core c with
      | some (g, t) => .next (t.post back .spawnAnswer spawner id (g + 1))
      | none => .next ((s.dropMsg id).post back .spawnAnswer spawner id 0)
  | _ => .next s

/-- SPAWN_ANSWER: d receives the new context's id, or all ones when the core was busy (R172). -/
def execSpawnAnswer (s : State) : Host.Outcome State Fault Refusal :=
  let g := s.arg.who
  let c := s.ctx g
  if c.wait ≠ .answer ∨ c.answer ≠ some s.arg.what then .next s
  else .next (s.completeHeld g [setS c.dest (if s.arg.val = 0 then 0xFFFFFFFFFFFFFFFF else word (s.arg.val - 1))])

/-! Filling slots (R158). -/

/-- The image of a context stands in its core's cache. -/
def State.hasImage (s : State) (g : Nat) : Bool := (s.core (s.at g)).tcc.contains g

/-- An image is fetched from the saggar, unless it is in the cache or on its way (R158). -/
def State.fetchImage (s : State) (g : Nat) : State :=
  if s.hasImage g || s.agenda.any (fun d => decide (d.ev = .imageFetch) && d.arg.what == g) then s
  else let t := s.readImage g; t.2.post t.1 .imageFetch (s.at g) g

/-- The image of a context that stands first at its level is fetched from the saggar, both images of a pair (R158). -/
def State.prefetch (s : State) (core : Nat) : State :=
  [3, 2, 1, 0].foldl (fun (s : State) (l : Nat) =>
    match (s.queued core).find? fun e => e.level.toNat == l with
    | none => s
    | some e =>
      match (s.ctx e.gid).twin with
      | none => s.fetchImage e.gid
      | some t => (s.fetchImage e.gid).fetchImage t.partner) s

/-- The slot reserved for a pair on both cores (R154). -/
def State.reservePair (s : State) (lead slot g h : Nat) : State :=
  let s := s.modCore lead fun k => k.setSlot slot { k.slot slot with reserved := some g }
  s.modCore (lead + 1) fun k => k.setSlot slot { k.slot slot with reserved := some h }

/-- A pair leaves the ready queue for a slot of both its cores. -/
def State.enterPair (s : State) (g h slot : Nat) : State := (((s.unready g).imageOut g).imageOut h).occupyPair g h slot 48

/-- Both cores of a pair may fill a slot in this cycle; if one may not, the leading core looks again when both may (R158). -/
def State.whenBoth (s : State) (lead : Nat) (t : State) : State :=
  let at_ := Nat.max (s.core lead).fillAt (s.core (lead + 1)).fillAt
  if at_ ≤ s.cycle then t else s.postSoon (at_ - s.cycle) .slotFill lead

/-- The pair at the head of the queue enters a slot free on both cores once both images are in the caches, or reserves one (R154,
R158). -/
def State.fillPair (s : State) (core slot g h : Nat) : State :=
  match s.pairSlots core with
  | k :: _ => if s.hasImage g && s.hasImage h then s.whenBoth core (s.enterPair g h k) else s
  | [] => (s.reservePair core slot g h).kick core

/-- A pair whose reserved slot is vacant on both cores, and whose images are in the caches, enters it (R154, R158). -/
def State.enterReserved (s : State) (core : Nat) : Option State :=
  (List.range Config.slots).findSome? fun k =>
    let u := (s.core core).slot k
    match u.reserved with
    | none => none
    | some g =>
      match (s.ctx g).twin with
      | none => none
      | some t =>
        if t.leader && (s.ctx g).kill.isNone && u.occ.isNone && ((s.core (core + 1)).slot k).occ.isNone && s.hasImage g
            && s.hasImage t.partner then
          some (s.whenBoth core (s.enterPair g t.partner k))
        else none

/-- The context a task record makes (R149, R165). -/
def TaskRec.context (t : TaskRec) : Ctx :=
  { Ctx.initial with
    s := (((Ctx.initial.s.set 4 t.args[0]).set 5 t.args[1]).set 6 t.args[2]).set 7 t.args[3]
    pc := t.pc.setWidth 64, prio := t.prio, pre := t.pre, tscale := t.tscale, tfmt := t.tfmt, domain := t.domain
    join := t.join, packet := if t.packet = 0xFFFFFFFF then none else some t.packet, twinned := t.twin }

/-- The owner's pop has the port of its deque in this cycle, or it is given the first cycle in which the port is free (R167). -/
def State.popPort (s : State) (core : Nat) : Bool × State :=
  let k := s.core core
  if k.popAt = some s.cycle then (true, s.modCore core fun k => { k with popAt := none })
  else if k.popAt.any fun c => decide (s.cycle < c) then (false, s)
  else
    let s := s.useDeque core
    if k.dequeAt ≤ s.cycle then (true, s)
    else (false, (s.modCore core fun x => { x with popAt := some k.dequeAt }).postSoon (k.dequeAt - s.cycle) .slotFill core)

/-- The record at the bottom of a core's deque becomes a context in a slot (R158, R167), a twin record a pair on the even core and the
next, or one queued entry (R154, R417). The pop waits for the deque's port, and for a cycle in which the core, or both, may accept a
context (R157); for want of a context number or of room it is looked at again (notes/assumptions/4.md). -/
def State.takeTask (s : State) (core : Nat) (t : TaskRec) (rest : List TaskRec) : State :=
  if !s.canTake core t then s
  else if !s.mayCreate core t.twin then s.postSoon 1 .slotFill core
  else
    let p := s.popPort core
    if !p.1 then p.2
    else
      match p.2.create core t.context with
      | none => p.2.postSoon 16 .slotFill core
      | some (_, u) =>
        (u.modCore core fun k => { k with deque := rest }).modPacket (t.packet / 4096) (t.packet % 4096) fun p =>
          { p with records := p.records - 1 }

/-- The thief's circle: the cores it probes, in order (R166). -/
def State.victims (s : State) (core : Nat) : List Nat :=
  match s.partOfCore core with
  | none => []
  | some v =>
    let size := (mapGet (s.die (dieOfCore core)).smax v).getD 0
    let l := s.stealDomain core size
    let i := l.idxOf core
    l.drop (i + 1) ++ l.take i

/-- A core may steal: an empty slot, no Ready context and no record of its own (R166). -/
def State.mayStealNow (s : State) (core : Nat) : Bool :=
  let k := s.core core
  !k.freeSlots.isEmpty && k.ready.isEmpty && k.deque.isEmpty && !k.leaseHold && !(s.cluster (clusterOf core)).halted

/-- A core with nothing of its own starts a search in the next cycle, unless one is under way or it waits (R166, R168). DESIGN CHOICE,
notes/assumptions/62.md. -/
def State.startSteal (s : State) (core : Nat) : State :=
  let k := s.core core
  if k.thief.probing.isSome || k.thief.until_.isSome || (s.victims core).isEmpty then s
  else s.postOnce 1 .stealProbe core

/-- A slot is filled from the ready queue (R158). -/
def State.fillReady (s : State) (core slot : Nat) (e : ReadyEntry) : State :=
  match (s.ctx e.gid).twin with
  | some t => if t.leader then s.fillPair core slot e.gid t.partner else s
  | none =>
    if s.hasImage e.gid then (((s.unready e.gid).imageOut e.gid).occupy e.gid slot 48).filled core else s

/-- No context of a core is to leave its slot. -/
def State.keepAll (s : State) (core : Nat) : State :=
  ((s.ctxsOf core).filter fun x => x.2.leaves).foldl (fun s x => s.modCtx x.1 fun c => { c with leaves := false }) s

/-- Packets that wait in PLACING look for the resource that came free (R141, R155). -/
def State.kickPlacing (s : State) : State :=
  [0, 1].foldl (fun (s : State) (die : Nat) =>
    if (s.die die).packets.any fun p => decide (p.2.st = .placing) then s.postOnce 0 .placeContext die else s) s

/-- The first empty slot of a core, which is not reserved, is filled from the first source that can supply a context; without an empty
slot a Ready context may displace another (R158, R162). -/
def State.fillSlot (s : State) (core : Nat) : State :=
  let k := s.core core
  match k.freeSlots, s.firstReady core, k.deque with
  | [], none, _ => s.keepAll core
  | [], some _, _ => s.postOnce 0 .displacement core
  | slot :: _, some e, _ => s.fillReady core slot e
  | _ :: _, none, t :: rest => s.takeTask core t rest
  | _ :: _, none, [] => s.startSteal core

/-- A vacant slot that is reserved on the trailing core of a pair is one its leading core waits for (R154). -/
def Core.awaitedSlot (k : Core) : Bool :=
  (List.range Config.slots).any fun i => (k.slot i).reserved.isSome && (k.slot i).occ.isNone

/-- SLOT_FILL: an empty slot is filled from the ready queue, the deque, or a steal, one slot a cycle (R158); packets that wait in
PLACING look again (R155). A halted or leased core fills none. With 1 + a context, its FORK's record reaches the port of the deque
(R167). -/
def execSlotFill (s : State) : Host.Outcome State Fault Refusal :=
  let core := s.arg.who
  let k := s.core core
  if s.arg.what ≠ 0 then .next (s.pushHeld (s.arg.what - 1))
  else if !k.present ∨ k.leaseHold ∨ (s.cluster (clusterOf core)).halted then .next s
  else if s.cycle < k.fillAt then .next (s.kick core)
  else
    let s := s.prefetch core
    match s.enterReserved core with
    | some t => .next t.kickPlacing
    | none =>
      let s := if core % 2 = 1 ∧ (s.core core).awaitedSlot = true then s.kick (core - 1) else s
      .next (s.fillSlot core).kickPlacing

/-- IMAGE_FETCH: an image has been read from the saggar into the core's cache; one that is poisoned kills its context (R158, R161, R409). -/
def execImageFetch (s : State) : Host.Outcome State Fault Refusal :=
  let core := s.arg.who
  let g := s.arg.what
  if (s.ctx g).st ≠ .ready ∨ (s.core core).tcc.contains g then .next s
  else
    let s := ((s.poisonKill g 0).chargeSaggar g (-2048)).imageIn g
    .next (s.kick (match (s.ctx g).twin with | some t => if t.leader then core else s.at t.partner | none => core))

/-! Displacement, pre-emption, promotion. -/

/-- A context qualifies for displacement (R162, R377). -/
def Ctx.displaceable (c : Ctx) : Bool :=
  decide (c.st = .parked) && c.pre && c.twin.isNone && c.pend.isEmpty && !c.resuming && c.outstanding.isNone && c.kill.isNone &&
  match c.wait with
  | .object _ reg => reg
  | .recv => decide (c.phase ≠ 2)
  | .waitt _ => true
  | _ => false

/-- Of two contexts the one parked longer, or in the higher slot (R162). -/
def longerParked (a b : Nat × Ctx) : Nat × Ctx :=
  if b.2.parkedAt < a.2.parkedAt ∨ (b.2.parkedAt = a.2.parkedAt ∧ a.2.slot.getD 0 < b.2.slot.getD 0) then b else a

/-- The first by an order of a list. -/
def bestOf {α : Type} (f : α → α → α) : List α → Option α
  | [] => none
  | x :: xs => some (xs.foldl f x)

/-- DISPLACEMENT: a Ready context waits and no slot is free: a Parked context that qualifies gives up its slot (R162); with none,
a Running one may be pre-empted. Without room for an image in the saggar none leaves until there is some (R161). -/
def execDisplacement (s : State) : Host.Outcome State Fault Refusal :=
  let core := s.arg.who
  if s.firstReady core = none ∨ (s.core core).freeSlots ≠ [] ∨ (s.cluster (clusterOf core)).halted then .next s
  else if !s.imageRoom core then .next (s.postSoon 16 .displacement core)
  else
    match bestOf longerParked ((s.ctxsOf core).filter fun x => x.2.displaceable) with
    | some v => .next (s.displace v.1)
    | none => .next (s.postSoon 0 .quantumPreempt core)

/-- A context that may be pre-empted once its quantum has passed: a Running one of its core, below or at the level of a Ready one (R163,
R377). -/
def State.preemptible (s : State) (core : Nat) (c : Ctx) : Bool :=
  c.pre && c.twin.isNone && c.kill.isNone && s.outranked core c.prio

/-- The cycle at which a context has held its slot for its quantum (R163). -/
def Ctx.quantumEnd (c : Ctx) : Nat := c.enteredAt + 16 * c.tquant.toNat

/-- Of two contexts the lower in PRIO, then the longer in its slot, then the higher slot (R163). -/
def firstVictim (a b : Nat × Ctx) : Nat × Ctx :=
  if b.2.prio.toNat < a.2.prio.toNat ∨ (b.2.prio = a.2.prio ∧
      (b.2.enteredAt < a.2.enteredAt ∨ (b.2.enteredAt = a.2.enteredAt ∧ a.2.slot.getD 0 < b.2.slot.getD 0))) then b else a

/-- QUANTUM_PREEMPT: of the pre-emptible contexts past their quantum one leaves, at its next turn without a pending register or an
outstanding access (R163). One that was chosen before, and parked since, stays chosen while it qualifies. -/
def execQuantumPreempt (s : State) : Host.Outcome State Fault Refusal :=
  let core := s.arg.who
  let cs := (s.ctxsOf core).filter fun x => s.preemptible core x.2
  let past := fun (x : Nat × Ctx) => decide (x.2.quantumEnd ≤ s.cycle)
  if s.firstReady core = none ∨ (s.core core).freeSlots ≠ [] ∨ (s.cluster (clusterOf core)).halted
      ∨ (cs.any fun x => x.2.leaves && past x) = true then .next s
  else
    let s := s.keepAll core
    let cs := cs.filter fun x => decide (x.2.st = .running)
    match bestOf firstVictim (cs.filter past) with
    | some v => .next (s.modCtx v.1 fun c => { c with leaves := true })
    | none =>
      match (cs.map fun x => x.2.quantumEnd).min? with
      | some e => .next (s.postSoon (e - s.cycle) .quantumPreempt core)
      | none => .next s

/-- READY_PROMOTION: a context that waited for more than 16 quanta moves to the tail of the next level (R160): at the end of the sixteenth
one, which R170's bound needs, and ahead of what enters that level in the same cycle. DESIGN CHOICE, notes/assumptions/73.md. -/
def execReadyPromotion (s : State) : Host.Outcome State Fault Refusal :=
  let core := s.arg.who
  let g := s.arg.what
  let k := s.core core
  match k.ready.find? fun e => e.gid == g with
  | none => .next s
  | some e =>
    let period := 256 * (s.ctx g).tquant.toNat
    if s.cycle < e.since + period ∨ e.level = 3 then .next s
    else
      let e' := { e with level := e.level + 1, since := s.cycle, rank := 0 }
      let s := s.setCore core { k with ready := insertReady (k.ready.filter fun x => x.gid != g) e' }
      .next ((s.post period .readyPromotion core g).kick core)

/-! Stealing (R166 to R168). -/

/-- The time of a probe (R166). -/
def probeCycles (a b : Nat) : Nat := if clusterOf a = clusterOf b then 40 else if dieOfCore a = dieOfCore b then 120 else 300

/-- The record at the top of a core's deque; an absent core has none that a probe finds (R437). -/
def Core.top (k : Core) : Option TaskRec := if k.present then k.deque.getLast? else none

/-- A thief takes a record: it lies in the record's domain, which is that of the core that forked it and which S = 0 leaves empty, it can
place it, and it still has an empty slot, queue and deque (R156, R166, R417). -/
def State.mayTakeRecord (s : State) (core : Nat) (t : TaskRec) : Bool :=
  t.size != 0 && (s.stealDomain t.forker t.size.toNat).contains core && (!t.twin || core % 2 == 0) && s.mayStealNow core

/-- STEAL_PROBE: a thief probes the next core of its circle (R166). -/
def execStealProbe (s : State) : Host.Outcome State Fault Refusal :=
  let core := s.arg.who
  let th := (s.core core).thief
  let vs := s.victims core
  if !s.mayStealNow core ∨ th.probing.isSome ∨ th.until_.isSome then .next s
  else
    match vs[th.next % Nat.max 1 vs.length]? with
    | none => .next s
    | some v =>
      .next ((s.modCore core fun k => { k with thief := { th with probing := some v } }).post (probeCycles core v) .stealProbeResult core v)

/-- STEAL_PROBE_RESULT: the probe takes the top record when the thief lies in its domain (R156), or counts as unsuccessful; a full
circle without success waits (R166 to R168). The steal reaches the victim's deque at the end of the probe's time. DESIGN CHOICE,
notes/assumptions/62.md. The deque's port serves one operation a cycle, in the order in which they reached it: a steal that finds it
taken is served in the cycle that it is given, with val = 1 (R167). At a core in hand-over or a halted one the probe is held (R379,
R437). -/
def execStealProbeResult (s : State) : Host.Outcome State Fault Refusal :=
  let core := s.arg.who
  let v := s.arg.what
  let th := (s.core core).thief
  let held := (s.cluster (clusterOf v)).leasedCore = some v ∨ (s.cluster (clusterOf v)).halted
  if th.probing ≠ some v then .next s
  else if held then .next (s.post 64 .stealProbeResult core v)
  else if s.arg.val = 0 ∧ s.cycle < (s.core v).dequeAt then
    .next ((s.useDeque v).post ((s.core v).dequeAt - s.cycle) .stealProbeResult core v 1)
  else
    let s := if s.arg.val = 0 then s.useDeque v else s
    let n := Nat.max 1 (s.victims core).length
    let next := (th.next + 1) % n
    match (s.core v).top.filter (s.mayTakeRecord core) with
    | some t =>
      let s := s.modCore v fun k => { k with deque := k.deque.dropLast }
      let s := s.modCore core fun k => { k with deque := t :: k.deque, thief := ⟨next, none, 0, 256, none⟩ }
      .next (s.kick core)
    | none =>
      if th.tried + 1 < n then
        .next ((s.modCore core fun k => { k with thief := ⟨next, none, th.tried + 1, th.wait, none⟩ }).postOnce 1 .stealProbe core)
      else
        let s := s.modCore core fun k =>
          { k with thief := ⟨next, none, 0, Nat.min 65536 (2 * th.wait), some (s.cycle + th.wait)⟩ }
        .next (s.post th.wait .stealBackoffEnd core)

/-- STEAL_BACKOFF_END: the thief's wait ends, by time or by a FORK of its cluster, after which the next wait is 256 again (R168). -/
def execStealBackoffEnd (s : State) : Host.Outcome State Fault Refusal :=
  let core := s.arg.who
  let th := (s.core core).thief
  match th.until_ with
  | none => .next s
  | some e =>
    let s := s.modCore core fun k => { k with thief := { th with until_ := none, wait := if s.cycle < e then 256 else th.wait } }
    let s := s.unpost .stealBackoffEnd core
    .next (s.postOnce 1 .stealProbe core)

end Sys2Proof.Machine
end

