-- ==== Sys2Proof/Machine/EngineOps.lean ====
section
/-!
DEFINITION. What both engines share: the checks, reads and writes of an engine (spec/12_copy_and_bank_units.md R277,
spec/14_matrix_unit.md R316), element decoding, their messages and errors (R111, R280, R322, R323).
-/
namespace Sys2Proof.Machine

/-- Whose access an engine makes: the issuing core, privilege, domain and the domain's generation (R277, R385). -/
structure EngUser where
  core   : Nat
  prv    : Bool
  domain : BitVec 16
  domGen : BitVec 8
  deriving DecidableEq, Repr

/-- The place of an engine's access, or its cause, in the order of R77 (R277). -/
def State.engPlace (s : State) (u : EngUser) (a : Word) (write : Bool) : Except Nat Nat :=
  let need := if write then 2 else 1
  if bits a 63 57 ≠ 0 then .error Cause.misaligned
  else if bits a 56 56 = 1 then
    if bits a 55 53 ≠ 0 ∨ s.addrMisaligned u.core .slabLocal a 1 then .error Cause.misaligned
    else
      match s.slabCluster u.core a with
      | none => .error Cause.protection
      | some cl =>
        let p := slabByte .slabLocal u.core (bits a 20 0)
        if !(s.core (8 * cl + p.1)).present then .error Cause.absentCore else .ok (slabPlace (8 * cl + p.1) p.2)
  else if !u.prv && !Rights.cover (s.plbRights u.core u.domain a) need then .error Cause.protection
  else if bits a 55 46 ≠ Config.moduleNumber then .error Cause.translation
  else
    let die := homeDie a
    let off := bits a 44 0
    if !s.pageGrants die (s.entryOf die off) need then .error Cause.translation
    else
      let p := s.globalPlace die off
      if write && s.tag (p / 64) != 0 then .error Cause.objStore else .ok p

/-- A range cut at addresses that are multiples of 8: each piece's first address and its bytes. -/
def cutRange (a : Word) (n : Nat) : List (Word × Nat) :=
  let h := Nat.min n ((8 - a.toNat % 8) % 8)
  let m := n - h
  (if h = 0 then [] else [(a, h)]) ++
    ((List.range ((m + 7) / 8)).map fun i => (a + word (h + 8 * i), Nat.min 8 (m - 8 * i)))

/-- A cause's place in the order of R77; what the home finds comes last. -/
def causeOrder (c : Nat) : Nat :=
  [Cause.misaligned, Cause.privileged, Cause.protection, Cause.absentCore, Cause.translation].idxOf c

/-- The place of a piece, or its cause; a poisoned byte fails a read (R411). -/
def State.engPiece (s : State) (u : EngUser) (write : Bool) (x : Word × Nat) : Except Nat Nat :=
  match s.engPlace u x.1 write with
  | .error c => .error c
  | .ok p => if !write && s.poisoned p x.2 then .error Cause.parityKill else .ok p

/-- The failure that is reported of several pieces: the first in the order of R77, of one cause the first address (R277). -/
def firstFault (ps : List (Word × Except Nat Nat)) : Option (Nat × Word) :=
  ps.foldl (fun best x =>
    match x.2, best with
    | .ok _, _ => best
    | .error c, none => some (c, x.1)
    | .error c, some b => if causeOrder c < causeOrder b.1 then some (c, x.1) else some b) none

/-- A sector of an S page homed on the other die that the die's remote-data cache holds for a matrix unit's read (R249, R316). -/
def State.rdcHit (s : State) (die : Nat) (a : Word) : Option Sector :=
  if bits a 56 56 = 1 ∨ homeDie a = die then none else cacheFind (s.die die).rdc a.toNat

/-- The places of the bytes of a unit's pieces, or their failure with its address, in the order of R77 within the unit (R277). -/
def State.engRange (s : State) (u : EngUser) (write : Bool) (xs : List (Word × Nat)) : Except (Nat × Word) (List Nat) :=
  let ps := xs.map fun x => (x, s.engPiece u write x)
  match firstFault (ps.map fun p => (p.1.1, p.2)) with
  | some e => .error e
  | none => .ok (ps.flatMap fun p => match p.2 with | .ok q => (List.range p.1.2).map fun i => q + i | .error _ => [])

/-- The bytes of a range. -/
def State.engRead (s : State) (u : EngUser) (a : Word) (n : Nat) : Except (Nat × Word) (List Byte) :=
  match s.engRange u false (cutRange a n) with
  | .error e => .error e
  | .ok ps => .ok (ps.map fun p => memGet s.mem p)

/-- The addresses of some pieces whose pages the home slices look up: those that pass the checks before TRANSLATION (R73, R77). -/
def State.engAsks (s : State) (u : EngUser) (write : Bool) (xs : List (Word × Nat)) : List Word :=
  (xs.map (·.1)).filter fun a =>
    match s.engPlace u a write with
    | .ok _ => true
    | .error c => c == Cause.translation || c == Cause.objStore

/-- The die on which a place lies. -/
def placeDie (p : Nat) : Nat :=
  if 2 ^ 50 ≤ p then dieOfCore ((p - 2 ^ 50) / 2 ^ 18) else p / (256 * Config.lineSlots * Config.frameSlots * Config.slices)

/-- A dropped write is counted at the core whose bank it is for, or at the slice of its line (R385). -/
def State.countDrop (s : State) (p : Nat) : State :=
  if 2 ^ 50 ≤ p then s.modCore ((p - 2 ^ 50) / 2 ^ 18) fun x => { x with dropped := x.dropped + 1 }
  else s.modSlice (sectorSlice (p / 64)) fun x => { x with dropped := x.dropped + 1 }

/-- An engine's writes take effect, but where the domain's generation fences them: those are dropped, and counted by banks' rows and
sectors (R385). -/
def State.engWrite (s : State) (u : EngUser) (ps : List Nat) (data : List Byte) : State :=
  let out := fun (p : Nat) => s.fenced (placeDie p) u.domain u.domGen
  let gone := ((ps.filter out).map fun p => if 2 ^ 50 ≤ p then p / 32 * 32 else p / 64 * 64).eraseDups
  gone.foldl State.countDrop (s.writePlaces ((ps.zip data).filter fun x => !out x.1))

/-- What an engine's reads leave in the remote-data cache of a die: a held sector becomes the most recently used, and one of an S page
homed elsewhere enters (R249, R316). -/
def State.rdcPass (s : State) (die : Nat) (as : List Word) : State :=
  let secs := ((as.filter fun a => bits a 56 56 == 0 && homeDie a != die).map fun a => a.toNat / 64 * 64).eraseDups
  secs.foldl (fun s x =>
    let a := word x
    let e := s.entryOf (homeDie a) (bits a 44 0)
    if (s.rdcHit die a).isSome then s.modDie die fun d => { d with rdc := cacheTouch d.rdc x }
    else if bits e 6 6 = 1 ∧ s.entryUsable (homeDie a) e then
      let d := BitVec.ofNat 512 (natOfBytes (memBytes s.mem (s.globalPlace (homeDie a) (bits a 44 0)) 64))
      s.modDie die fun k => { k with rdc := cacheInsert rdcSet 16 k.rdc x d }
    else s) s

/-- The cores whose local memory a list of places lies in, and how many bytes in each. -/
def slabCounts (ps : List Nat) : List (Nat × Nat) :=
  let cs := (ps.filter fun p => decide (2 ^ 50 ≤ p)).map fun p => (p - 2 ^ 50) / 2 ^ 18
  cs.eraseDups.map fun c => (c, (cs.filter fun x => x == c).length)

/-- The banks that a list of places lies in, as core and bank, with its rows there. -/
def slabRows (ps : List Nat) : List (Nat × Nat × Nat) :=
  ((ps.filter fun p => decide (2 ^ 50 ≤ p)).map fun p =>
    ((p - 2 ^ 50) / 2 ^ 18, (p - 2 ^ 50) % 2 ^ 18 / 32 % 8, (p - 2 ^ 50) % 2 ^ 18 / 256)).eraseDups

/-- Rows that an engine of a cluster reads or writes wait at their banks: for grants of the copy class, or, at another cluster, in the
queue of core accesses, which they reach by the network port (R240, R241, R269). DESIGN CHOICE, notes/assumptions/35.md. -/
def State.useBanks (s : State) (cl : Nat) (rows : List (Nat × Nat × Nat)) : State :=
  rows.foldl (fun s r =>
    (s.modCore r.1 fun k => k.modBank r.2.1 fun b =>
      if clusterOf r.1 = cl then { b with copyQ := b.copyQ + 1 } else { b with portQ := b.portQ + 1 }).pokeBank r.1 r.2.1 |>.pokePort r.1 r.2.1 0) s

/-- The time that a line's read takes at its slice beyond an L2 hit's (R251). -/
def State.lineTime (s : State) (die off : Nat) : Nat × State :=
  let hit := ((s.slice (sliceOf die (homeOf off))).line (off / 256)).any fun l => l.valid.getLsbD (off / 64 % 4)
  if hit && bits (s.entryOf die off) 5 5 == 0 then (0, s) else s.freeRange 250 330

/-- The time of a read by an engine at a core of an address that names what it names for another (R251, R290, R325): `own` for a bank of
the engine's own core; one that the remote-data cache may serve finds it there (R316). The read itself comes with the unit. -/
def State.engLoadTime (s : State) (core user own : Nat) (shared : Bool) (a : Word) : Nat × State :=
  if bits a 56 56 = 1 then
    match s.slabCluster user a with
    | none => (own, s)
    | some cl =>
      (if cl = clusterOf core then (if bits a 20 18 = core % 8 then own else 34)
       else if cl / 64 = dieOfCore core then 120 else 230, s)
  else if shared && (s.rdcHit (dieOfCore core) a).isSome then s.freeRange 140 180
  else
    let t := s.freeRange 170 230
    let far := if homeDie a = dieOfCore core then 0 else 110
    if globalLines [a] = [] then (t.1 + far, t.2)
    else
      let p := t.2.lineTime (homeDie a) (bits a 44 0)
      (t.1 + p.1 + far, p.2)

/-- The time of the acknowledgement of an engine's write (R251, R290): that of a U page is the page's. -/
def State.engAckTime (s : State) (core user own : Nat) (a : Word) : Nat × State :=
  if bits a 56 56 = 1 then s.engLoadTime core user own false a
  else
    let t := if bits (s.entryOf (homeDie a) (bits a 44 0)) 5 5 = 1 then s.freeRange 420 560 else s.freeRange 170 230
    (t.1 + (if homeDie a = dieOfCore core then 0 else 110), t.2)

/-! Elements. -/

/-- Bits per element of a format (R41); a TERN5 element counts as a byte. -/
def elemBits (code : Nat) : Nat :=
  match kindOf code with
  | .fp f => f.width
  | .int w => w
  | _ => 8

/-- Element k of an array of bytes (R52): INT3 in 3-byte groups, INT4 in nibbles, the rest in bytes. -/
def elemOf (code : Nat) (bs : List Byte) (k : Nat) : Nat :=
  let w := elemBits code
  if w = 3 then natOfBytes ((bs.drop (3 * (k / 8))).take 3) / 2 ^ (3 * (k % 8)) % 8
  else if w = 4 then (bs.getD (k / 2) 0).toNat / 16 ^ (k % 2) % 16
  else natOfBytes ((bs.drop (w / 8 * k)).take (w / 8))

/-- Elements packed from the start of a byte (R52), padded with zeros. -/
def packElems (code : Nat) (xs : List Nat) : List Byte :=
  let w := elemBits code
  let n := (xs.length * w + 7) / 8
  bytesOfNat (if w = 3 then (xs.length + 7) / 8 * 3 else n) (packLanes w xs)

/-! Messages and errors. -/

/-- TVAL of a recorded ENGINE_ERROR (R190): source 0 the matrix unit, 1 the copy engine. -/
def engineTval (seq : BitVec 32) (cause source : Nat) : Word := word (seq.toNat + 2 ^ 32 * cause + 2 ^ 40 * source)

/-- w0 of a message: kind and tag (R337). -/
def messageHead (kind tag : Nat) : Word := word (kind + 2 ^ 32 * tag)

/-- The tag of an OBJERR is the command's (R111, R337; notes/assumptions/28.md). -/
def State.objErr (s : State) (g : Nat) (src tag : Nat) (obj : Word) (cause : Nat) : State :=
  (s.modCtx g fun c => { c with eerr := true }).postMessage 1 g src (messageHead 0x40 tag) (word g) obj (word cause)

/-- A request that an engine makes for its command's context (R111). -/
def State.engReq (s : State) (g op : Nat) (addr operand : Word) (eng lane : Nat) : ObjReq :=
  { s.ctxReq g op addr operand 0 false false false false .pod with eng := eng, lane := lane }

/-- The checks of an engine's request made before it leaves (R114, under the privilege and domain of the push). -/
def State.engObjCheck (s : State) (u : EngUser) (a : Word) : Option Nat :=
  if bits a 63 56 ≠ 0 ∨ a.toNat % 64 ≠ 0 then some Cause.misaligned
  else if !u.prv && !Rights.cover (s.plbRights u.core u.domain a) 8 then some Cause.protection
  else none

/-! Scores of the Assay (R420, R430). -/

/-- A resource's score (R430). -/
def State.score (s : State) (key : Nat) : Nat := (mapGet s.assay.scores key).getD 0

/-- A resource's score grows, to 65,535 at most; from 1,024 on its lease is due at once (R420, R430). -/
def State.addScore (s : State) (key n : Nat) : State :=
  let new := Nat.min 65535 (s.score key + n)
  let t := { s with assay := { s.assay with scores := mapSet s.assay.scores key new } }
  if 1024 ≤ new ∧ s.score key < 1024 then t.postOnce 0 .leaseStart key else t

/-- A resolved mismatch of a pair counts against both cores (R415, R418). -/
def State.scorePair (s : State) (core n : Nat) : State :=
  (s.addScore (s.coreKey (core / 2 * 2)) n).addScore (s.coreKey (core / 2 * 2 + 1)) n

end Sys2Proof.Machine
end

