-- ==== Sys2Proof/Machine/CopyEngine.lean ====
section
/-!
DEFINITION. The copy engine's steps: CP_LANE_START, CP_UNIT, CP_WRITES_ACKED and CP_ACTION_REPLY
(spec/12_copy_and_bank_units.md R269 to R281, R290).
-/
namespace Sys2Proof.Machine

/-! Commands. -/

/-- KIND of a copy command. -/
def CpCmd.kind (c : CpCmd) : Nat := bits (cw c.words 0) 7 0

/-- ACT of a copy command. -/
def CpCmd.act (c : CpCmd) : Nat := bits (cw c.words 0) 17 16

/-- NOTIFY. -/
def CpCmd.notify (c : CpCmd) : Bool := bits (cw c.words 0) 18 18 == 1

/-- TAG. -/
def CpCmd.tag (c : CpCmd) : Nat := bits (cw c.words 0) 63 32

/-- ROWS. -/
def CpCmd.rows (c : CpCmd) : Nat := bits (cw c.words 4) 63 32

/-- ROWLEN. -/
def CpCmd.rowLen (c : CpCmd) : Nat := bits (cw c.words 4) 31 0

/-- A signed 32-bit pitch. -/
def pitch (w : Word) (lo : Nat) : Word := ((w >>> lo).setWidth 32 : BitVec 32).signExtend 64

/-- SPITCH and DPITCH. -/
def CpCmd.spitch (c : CpCmd) : Word := pitch (cw c.words 3) 0

/-- DPITCH. -/
def CpCmd.dpitch (c : CpCmd) : Word := pitch (cw c.words 3) 32

/-- Whose accesses the command makes. -/
def CpCmd.user (c : CpCmd) : EngUser := ⟨c.core, c.prv, c.domain, c.domGen⟩

/-- The bytes of n elements of the destination format, or the elements in n bytes (R52). -/
def bytesOfElems (w n : Nat) : Nat := if w = 3 then n / 8 * 3 else n * w / 8

/-- The elements that n destination bytes hold. -/
def elemsOfBytes (w n : Nat) : Nat := if w = 3 then n / 3 * 8 else n * 8 / w

/-- The destination bytes of a row (R274). -/
def CpCmd.rowBytes (c : CpCmd) : Nat := if c.kind = 5 then bytesOfElems (elemBits c.dfmt) c.rowLen else c.rowLen

/-- The destination of a row (R274). -/
def CpCmd.dstRow (c : CpCmd) : Word := cw c.words 2 + word c.row * c.dpitch

/-- The bytes of the next unit: up to the end of its 256-byte block, or, of 3-bit groups, those that begin in it (R271). -/
def CpCmd.unitLen (c : CpCmd) : Nat :=
  let room := 256 - (c.dstRow + word c.off).toNat % 256
  let left := c.rowBytes - c.off
  if c.kind = 5 ∧ elemBits c.dfmt = 3 then Nat.min left (3 * ((room + 2) / 3)) else Nat.min left room

/-- The command after its unit, or none when it was the last. -/
def CpCmd.advance (c : CpCmd) : Option CpCmd :=
  let o := c.off + c.unitLen
  if o < c.rowBytes then some { c with off := o, unit := c.unit + 1 }
  else if c.row + 1 < c.rows then some { c with off := 0, row := c.row + 1, unit := c.unit + 1, index := none }
  else none

/-! Sources. -/

/-- The source of a row: of a GATHER, by the index-list entry that the engine read for it (R274, R275). -/
def CpCmd.source (c : CpCmd) : Word :=
  cw c.words 1 + word (if c.kind = 3 then c.index.getD 0 else c.row) * c.spitch

/-- The address of the index-list entry of a row. -/
def CpCmd.indexAddr (c : CpCmd) : Word := cw c.words 7 + word (4 * c.row)

/-- The entry of the index list that the engine reads before the first unit of a row (R275). -/
def CpCmd.indexPieces (c : CpCmd) : List (Word × Nat) := if c.kind = 3 ∧ c.index = none then cutRange c.indexAddr 4 else []

/-- The command with its row's index, read once (R275). -/
def State.cpIndex (s : State) (c : CpCmd) : Except (Nat × Word) CpCmd :=
  if c.kind ≠ 3 ∨ c.index.isSome = true then .ok c
  else if c.indexAddr.toNat % 4 ≠ 0 then .error (Cause.misaligned, c.indexAddr)
  else
    match s.engRead c.user c.indexAddr 4 with
    | .error e => .error e
    | .ok bs => .ok { c with index := some (natOfBytes bs) }

/-- A TERN5 element as its destination's bits; an illegal byte gives zero (R276). DEDUCED, notes/assumptions/29.md. -/
def ternElem (dfmt : Nat) (b : Byte) (i : Nat) : Nat :=
  let t : Int := if b.toNat < 243 then (trits b.toNat).getD i 0 else 0
  match kindOf dfmt with
  | .int w => lowBits w t
  | .fp f => f.encode .rne false (.ofInt t)
  | _ => 0

/-- The elements of a CONV unit: the first one and how many, and the source's groups of elements: the first, how many, the elements and
the bytes of each (R271, R276). -/
structure ConvSpan where
  first  : Nat
  count  : Nat
  group  : Nat
  groups : Nat
  per    : Nat
  size   : Nat
  deriving DecidableEq, Repr

/-- The span of a CONV command's next unit. -/
def CpCmd.span (c : CpCmd) : ConvSpan :=
  let sw := elemBits c.sfmt
  let k0 := elemsOfBytes (elemBits c.dfmt) c.off
  let k := elemsOfBytes (elemBits c.dfmt) c.unitLen
  let tern := c.sfmt == 13
  let per := if tern then 5 else if sw = 3 then 8 else if sw = 4 then 2 else 1
  ⟨k0, k, k0 / per, (k0 + k - 1) / per + 1 - k0 / per, per,
    if tern then 1 else if sw = 3 then 3 else if sw = 4 then 1 else sw / 8⟩

/-- What a unit reads (R271). -/
def CpCmd.readPieces (c : CpCmd) : List (Word × Nat) :=
  if c.kind = 4 then []
  else if c.kind = 5 then cutRange (c.source + word (c.span.group * c.span.size)) (c.span.groups * c.span.size)
  else cutRange (c.source + word c.off) c.unitLen

/-- What a unit writes (R271). -/
def CpCmd.writePieces (c : CpCmd) : List (Word × Nat) := cutRange (c.dstRow + word c.off) c.unitLen

/-- An address of a CONV whose elements are wider than a byte and not aligned (R276). -/
def convMisaligned (code : Nat) (a : Word) : Bool :=
  (elemBits code == 16 && a.toNat % 2 != 0) || (elemBits code == 32 && a.toNat % 4 != 0)

/-- The converted bytes of a CONV unit from its source's bytes, and the illegal TERN5 bytes it counts (R276, R280). -/
def CpCmd.converted (c : CpCmd) (bs : List Byte) : List Byte × Nat :=
  let p := c.span
  let tern := c.sfmt == 13
  let skip := p.first - p.group * p.per
  let xs := (List.range p.count).map fun i =>
    if tern then ternElem c.dfmt (bs.getD ((skip + i) / 5) 0) ((skip + i) % 5)
    else convert (kindOf c.sfmt) (kindOf c.dfmt) c.rnd c.sat (elemOf c.sfmt bs (skip + i))
  let bad := if tern then ((List.range p.groups).filter fun i =>
    decide (p.first ≤ (p.group + i) * 5) && decide (242 < (bs.getD i 0).toNat)).length else 0
  (packElems c.dfmt xs, bad)

/-- The places a unit reads, or its failure (R277). -/
def State.cpUnitSrc (s : State) (c : CpCmd) : Except (Nat × Word) (List Nat) :=
  if c.kind = 5 ∧ convMisaligned c.sfmt c.source then .error (Cause.misaligned, c.source) else s.engRange c.user false c.readPieces

/-- What a unit writes, or its failure: the source is checked and read before the destination is looked at (R271, R277). -/
def State.cpUnitData (s : State) (c : CpCmd) : Except (Nat × Word) (List Byte × Nat) :=
  if c.kind = 4 then .ok ((List.range c.unitLen).map fun j => (cw c.words 7).extractLsb' (8 * ((c.off + j) % 8)) 8, 0)
  else
    match s.cpUnitSrc c with
    | .error e => .error e
    | .ok ps =>
      let bs := ps.map fun p => memGet s.mem p
      .ok (if c.kind = 5 then c.converted bs else (bs, 0))

/-- The places a unit writes, or its failure. -/
def State.cpUnitDst (s : State) (c : CpCmd) : Except (Nat × Word) (List Nat) :=
  if c.kind = 5 ∧ convMisaligned c.dfmt c.dstRow then .error (Cause.misaligned, c.dstRow) else s.engRange c.user true c.writePieces

/-! Lanes. -/

/-- A lane of a cluster. -/
def Cluster.lane (x : Cluster) (l : Nat) : CpLane := (mapGet x.lanes l).getD ⟨none, 0⟩

/-- A lane replaced. -/
def Cluster.setLane (x : Cluster) (l : Nat) (c : CpLane) : Cluster := { x with lanes := mapSet x.lanes l c }

/-- A command's context has a command in execution. -/
def Cluster.busyFor (x : Cluster) (c : CpCmd) : Bool :=
  x.lanes.any fun l => match l.2.cmd with | some d => d.gid == c.gid && d.gen == c.gen | none => false

/-- The command that a free lane takes: the oldest of its context, once 8 cycles have passed since it was queued (R270, R290). -/
def Cluster.nextCopy (x : Cluster) (now : Nat) : Option CpCmd :=
  let ready := x.cpQueue.filter fun c => !c.failed && decide (c.queued + 8 ≤ now) && !x.busyFor c
  (List.range 8).findSome? fun i =>
    let k := (x.rr + 1 + i) % 8
    ready.find? fun c => c.core % 8 == k

/-- The time of a read by a lane. -/
def State.cpLoadTime (s : State) (c : CpCmd) (a : Word) : Nat × State := s.engLoadTime c.core c.core 34 false a

/-- The time before a command's first unit: its first source data, for which a GATHER reads its index list first (R290). -/
def State.cpFirst (s : State) (c : CpCmd) : Nat × State :=
  if c.kind = 4 then (1, s) else s.cpLoadTime c (if c.kind = 3 then c.indexAddr else c.source)

/-- Free lanes take commands, in ascending lane number (R270). -/
def State.startLanes (s : State) (cl : Nat) : Nat → State
  | 0 => s
  | n + 1 =>
    let x := s.cluster cl
    if x.cpHalted then s
    else
      match (List.range 4).find? fun l => (x.lane l).cmd.isNone, x.nextCopy s.cycle with
      | some l, some c =>
        let t := (s.modCluster cl fun x => { x.setLane l ⟨some c, 0⟩ with rr := c.core % 8 }).cpFirst c
        (t.2.post t.1 .cpUnit (4 * cl + l)).startLanes cl n
      | _, _ => s

/-- A lane's command ends: its queue entry is freed, the first waiting pusher takes it, and a further command may start
(R279, R282). -/
def State.endCopy (s : State) (cl l : Nat) (c : CpCmd) : State :=
  let s := s.modCluster cl fun x => { x.setLane l ⟨none, 0⟩ with cpQueue := x.cpQueue.filter fun d => d.seq != c.seq }
  ((s.grantCopy cl).postOnce 1 .cpLaneStart cl).lookDrain c.gid

/-- A completed command is its context's most recent one (R283). -/
def State.doneCopy (s : State) (cl l : Nat) (c : CpCmd) : State :=
  let s := if s.sameCtx c.gid c.gen then s.modCtx c.gid fun x => { x with lastCp := some c.seq } else s
  s.endCopy cl l c

/-- CPDONE is posted when the command asks for it; else it is complete (R279, R280). -/
def State.notifyCopy (s : State) (cl l : Nat) (c : CpCmd) : State :=
  if c.notify then
    let m : Message := ⟨c.gid, l, messageHead 3 c.tag, word c.gid, c.seq.setWidth 64, word c.badTern⟩
    let t := (s.modCluster cl fun x => x.setLane l ⟨some c, 3⟩).sendMsg (.posted c.gid m 1)
    t.2.post 1 .messageArrival (coreOf c.gid) t.1
  else s.doneCopy cl l c

/-- CPERR of a command (R280), from its lane (src 1) or, of a removed command, from the queue (src 5). -/
def State.cpErr (s : State) (src l : Nat) (c : CpCmd) (cause unit : Nat) (addr : Word) : State :=
  let m : Message := ⟨c.gid, l, messageHead 4 c.tag, word c.gid,
    word (c.seq.toNat + 2 ^ 32 * cause + 2 ^ 40 * (unit % 2 ^ 24)), word (bits addr 56 0)⟩
  let t := s.sendMsg (.posted c.gid m src)
  t.2.post 1 .messageArrival (coreOf c.gid) t.1

/-- The CPERR of a removed command: ENGINE_ERROR and unit 0; the address, which the rules do not give, is a free value (R280).
DESIGN CHOICE, notes/assumptions/38.md. -/
def State.cpRemoved (s : State) (d : CpCmd) : State :=
  let f := s.freeNat
  f.2.cpErr 5 0 d Cause.engineError 0 (word f.1)

/-- CP_FAULT: a dynamic fault stops the command before its unit: CPERR, the sticky flag, the recorded ENGINE_ERROR, and the
context's later commands removed with a CPERR each, whose entries stay until it is accepted (R280, R341). -/
def State.cpFault (s : State) (cl l : Nat) (c : CpCmd) (cause : Nat) (addr : Word) : State :=
  let s := s.recordEngine c.gid (engineTval c.seq cause 1) addr
  let later := fun (d : CpCmd) => d.gid == c.gid && d.gen == c.gen && d.seq != c.seq && !d.failed
  let ds := (s.cluster cl).cpQueue.filter later
  let s := s.modCluster cl fun x =>
    { x.setLane l ⟨some c, 5⟩ with cpQueue := x.cpQueue.map fun d => if later d then { d with failed := true } else d }
  ds.foldl State.cpRemoved (s.cpErr 1 l c cause c.unit addr)

/-- The entry of a removed command is freed (R341). -/
def State.freeRemoved (s : State) (cl seq : Nat) : State :=
  let gone := fun (d : CpCmd) => d.failed && d.seq.toNat == seq
  if (s.cluster cl).cpQueue.any gone then
    (s.modCluster cl fun x => { x with cpQueue := x.cpQueue.filter fun d => !gone d }).grantCopy cl
  else s

/-- CP_LANE_START: free lanes take commands (R270); or, with a lane's number plus one, the message of that lane's command has been
accepted, and the command goes on; or, from 16 on, that of a removed command with this sequence number (R341). -/
def execCpLaneStart (s : State) : Host.Outcome State Fault Refusal :=
  let cl := s.arg.who
  if s.arg.what = 0 then .next (s.startLanes cl 4)
  else if s.swappedOut s.arg.val then .next (s.post 64 .cpLaneStart cl s.arg.what s.arg.val)
  else if 16 ≤ s.arg.what then .next (s.freeRemoved cl (s.arg.what - 16))
  else
    let l := s.arg.what - 1
    let x := (s.cluster cl).lane l
    match x.cmd with
    | none => .next s
    | some c =>
      if x.waiting = 3 then .next (s.doneCopy cl l c)
      else if x.waiting = 4 then .next (s.notifyCopy cl l c)
      else if x.waiting = 5 then .next (s.endCopy cl l c)
      else .next s

/-- A unit's bytes are written; slab bytes that are not dropped are counted at their cores (R271, R281, R385). -/
def State.cpWrite (s : State) (c : CpCmd) (ps : List Nat) (data : List Byte) : State :=
  (slabCounts (ps.filter fun p => !s.fenced (placeDie p) c.domain c.domGen)).foldl (fun s x => s.post 0 .arrivalCount x.1 c.tag x.2)
    (s.engWrite c.user ps data)

/-- The banks and home slices that a unit goes through: rows of slabs take grants, global lines pass L2 (R240, R246, R269). -/
def State.cpPass (s : State) (cl : Nat) (c : CpCmd) (src dst : List Nat) : State :=
  let s := s.useBanks cl (slabRows src ++ slabRows dst)
  (s.passLines (c.readPieces.map (·.1)) false).passLines (c.writePieces.map (·.1)) true

/-- One of the rows lies at a core in hand-over (R423). -/
def State.rowsHeld (s : State) (rows : List (Nat × Nat × Nat)) : Bool :=
  rows.any fun r => decide ((s.cluster (clusterOf r.1)).leasedCore = some r.1)

/-- The places of the index-list entry that the lane reads next. -/
def State.indexPlaces (s : State) (c : CpCmd) : List Nat :=
  match s.engRange c.user false c.indexPieces with
  | .ok ps => ps
  | .error _ => []

/-- The bank or home slice through which a row's index comes (R240, R246, R269, R275). -/
def State.indexPass (s : State) (cl : Nat) (c : CpCmd) : State :=
  (s.useBanks cl (slabRows (s.indexPlaces c))).passLines (c.indexPieces.map (·.1)) false

/-- A lane's next unit, its pages looked up: checked, read and written, or the command fails; a unit for a core in hand-over waits
(R271, R277, R423). -/
def State.cpStep (s : State) (cl l : Nat) (c : CpCmd) : State :=
  match s.cpUnitData c with
  | .error e => s.cpFault cl l c e.1 e.2
  | .ok (data, bad) =>
    match s.cpUnitDst c with
    | .error e => s.cpFault cl l c e.1 e.2
    | .ok ps =>
      let src := match s.cpUnitSrc c with | .ok qs => qs | .error _ => []
      if s.rowsHeld (slabRows src ++ slabRows ps) then s.post 64 .cpUnit (4 * cl + l)
      else
        let c := { c with badTern := c.badTern + bad }
        let s := (s.cpPass cl c src ps).cpWrite c ps data
        match c.advance with
        | some d => (s.modCluster cl fun x => x.setLane l ⟨some d, 0⟩).post 2 .cpUnit (4 * cl + l)
        | none =>
          let t := (s.modCluster cl fun x => x.setLane l ⟨some c, 1⟩).engAckTime c.core c.core 34 (c.dstRow + word c.off)
          t.2.post t.1 .cpWritesAcked (4 * cl + l)

/-- A lane's unit comes again: its page must be walked for first (R73). -/
def State.cpAgain (s : State) (cl l : Nat) : State := s.post 16 .cpUnit (4 * cl + l)

/-- While a unit waits for its page, the lane reads ahead: the pages of as many units after it, up to a row whose index is not read, are
looked up too (R73, R275, R290). DESIGN CHOICE, notes/assumptions/60.md. -/
def State.cpReadAhead (s : State) : Nat → CpCmd → State
  | 0, _ => s
  | n + 1, c =>
    match c.advance with
    | none => s
    | some d =>
      if d.indexPieces = [] then
        (s.lookUp (s.engAsks d.user false d.readPieces ++ s.engAsks d.user true d.writePieces)).2.cpReadAhead n d
      else s

/-- A lane's unit, whose row's index is known: its pages are looked up, and it goes on (R73, R271). -/
def State.cpGo (s : State) (cl l : Nat) (c : CpCmd) : State :=
  match s.lookUp (s.engAsks c.user false c.readPieces ++ s.engAsks c.user true c.writePieces) with
  | (false, u) => (u.cpReadAhead 64 c).cpAgain cl l
  | (true, u) => u.cpStep cl l c

/-- CP_UNIT: a lane checks, reads and writes one unit, with the index of a new row before it (R271, R275, R277); the first row's data
follow its index in their own time (R290). A killed context's command stops here (R272), and one of a halted partition waits. -/
def execCpUnit (s : State) : Host.Outcome State Fault Refusal :=
  let cl := s.arg.who / 4
  let l := s.arg.who % 4
  let x := s.cluster cl
  match (x.lane l).cmd with
  | none => .next s
  | some c =>
    if (x.lane l).waiting ≠ 0 ∨ x.cpHalted then .next s
    else if !s.sameCtx c.gid c.gen then .next (s.endCopy cl l c)
    else
      match s.lookUp (s.engAsks c.user false c.indexPieces) with
      | (false, t) => .next (t.cpAgain cl l)
      | (true, t) =>
        if t.rowsHeld (slabRows (t.indexPlaces c)) then .next (t.post 64 .cpUnit (4 * cl + l))
        else
          match t.cpIndex c with
          | .error e => .next (t.cpFault cl l c e.1 e.2)
          | .ok d =>
            let u := (t.indexPass cl c).modCluster cl fun x => x.setLane l ⟨some d, 0⟩
            if c.indexPieces ≠ [] ∧ c.unit = 0 then
              let w := u.cpLoadTime d (d.source + word d.off)
              .next (w.2.post w.1 .cpUnit (4 * cl + l))
            else .next (u.cpGo cl l d)

/-- The operation of a completion action (R279). -/
def actOp (act : Nat) : Nat := [0, 0x2B, 0x2E, 0x33].getD act 0

/-- A refused action: OBJERR and the sticky flag; the command still counts as complete (R111, R279). -/
def State.refusedCopy (s : State) (cl l : Nat) (c : CpCmd) (cause : Nat) : State :=
  let s := s.modCtx c.gid fun x => { x with eerr := true }
  let m : Message := ⟨c.gid, l, messageHead 0x40 c.tag, word c.gid, cw c.words 5, word cause⟩
  let t := (s.modCluster cl fun x => x.setLane l ⟨some c, 4⟩).sendMsg (.posted c.gid m 1)
  t.2.post 1 .messageArrival (coreOf c.gid) t.1

/-- CP_WRITES_ACKED: every write of a command is acknowledged: its completion action leaves, or it completes (R279). -/
def execCpWritesAcked (s : State) : Host.Outcome State Fault Refusal :=
  let cl := s.arg.who / 4
  let l := s.arg.who % 4
  let x := (s.cluster cl).lane l
  match x.cmd with
  | none => .next s
  | some c =>
    if x.waiting ≠ 1 then .next s
    else if !s.sameCtx c.gid c.gen then .next (s.endCopy cl l c)
    else if c.act = 0 then .next (s.notifyCopy cl l c)
    else
      match s.engObjCheck c.user (cw c.words 5) with
      | some cause => .next (s.refusedCopy cl l c cause)
      | none =>
        let r := s.engReq c.gid (actOp c.act) (cw c.words 5) (cw c.words 6) 2 l
        .next ((s.fresh.2.modCluster cl fun x => x.setLane l ⟨some c, 2⟩).sendRequest r)

/-- What an engine's answer says: none while it is only listed; else the cause, 0 for a grant. -/
def engineAnswer : NetBody → Option (ObjReq × Option Nat)
  | .objReply r code _ cause => some (r, if code = 4 then none else some (if code = 3 then cause else 0))
  | .wakeUp r _ cause => some (r, some cause)
  | _ => none

/-- CP_ACTION_REPLY: the completion action is answered (R279). -/
def execCpActionReply (s : State) : Host.Outcome State Fault Refusal :=
  match (s.msg s.arg.what).bind engineAnswer with
  | none => .next s
  | some (r, ans) =>
    if s.swappedOut r.ctxid then .next (s.post 64 .cpActionReply s.arg.who s.arg.what)
    else
    let s := s.dropMsg s.arg.what
    let cl := clusterOf (coreOf r.ctxid)
    let x := (s.cluster cl).lane r.lane
    match x.cmd, ans with
    | some c, some cause =>
      if x.waiting ≠ 2 ∨ c.gid ≠ r.ctxid ∨ c.gen ≠ r.gen then .next s
      else if !s.sameCtx c.gid c.gen then .next (s.endCopy cl r.lane c)
      else if cause = 0 then .next (s.notifyCopy cl r.lane c)
      else .next (s.refusedCopy cl r.lane c cause)
    | _, _ => .next s

end Sys2Proof.Machine
end

