-- ==== Sys2Proof/Machine/MatrixEngine.lean ====
section
/-!
DEFINITION. The matrix unit's steps: MX_COMMAND_START, MX_GROUP, MX_WRITES_ACKED, MX_CTR_REPLY, GMMA_ADMIT, GMMA_PART_DONE and
ACCST_DIGEST_COMPARE (spec/14_matrix_unit.md R307 to R332).
-/
namespace Sys2Proof.Machine

/-! Commands. -/

/-- KIND of a matrix command: 1 MMA, 2 MMAZ, 3 ACCZ, 4 ACCLD, 5 ACCST, 6 GMMA. -/
def MxCmd.kind (c : MxCmd) : Nat := bits (cw c.words 0) 7 0

/-- KG. -/
def MxCmd.groups (c : MxCmd) : Nat := bits (cw c.words 0) 43 32

/-- M. -/
def MxCmd.m (c : MxCmd) : Nat := bits (cw c.words 0) 50 44

/-- N. -/
def MxCmd.n (c : MxCmd) : Nat := bits (cw c.words 0) 57 51

/-- TAG. -/
def MxCmd.tag (c : MxCmd) : Nat := bits (cw c.words 6) 63 32

/-- A multiplying command. -/
def MxCmd.multiplies (c : MxCmd) : Bool := c.kind == 1 || c.kind == 2 || c.kind == 6

/-- The weights have group scales. -/
def MxCmd.grouped (c : MxCmd) : Bool := c.bf == 9 || c.bf == 10

/-- Whose accesses the command makes: the pusher's core names a cluster-63 address (R316, R327). -/
def MxCmd.user (c : MxCmd) : EngUser := ⟨c.core, c.prv, c.domain, c.domGen⟩

/-- The region of result cells of a command or of a tile of a GMMA (R317, R327). -/
structure Region where
  acc  : Nat
  rows : Nat
  cols : Nat
  i0   : Nat
  j0   : Nat
  deriving DecidableEq, Repr

/-- The region a run works on now. -/
def MxRun.region (r : MxRun) : Region :=
  let c := r.cmd
  if r.part then
    let n := 4 * r.member + r.tile
    ⟨r.tile, 64, 64, 64 * (n / c.n), 64 * (n % c.n)⟩
  else ⟨bits (cw c.words 0) 9 8, c.m, c.n, 0, 0⟩

/-- The tiles of a GMMA member (R327). -/
def MxCmd.memberTiles (c : MxCmd) (r : Nat) : Nat := Nat.min 4 (c.m * c.n - 4 * r)

/-! Operands. -/

/-- The address of byte 0 of line i of tile t of the descriptor in words k and k + 1, before rotation (R313). -/
def MxCmd.lineAddr (c : MxCmd) (k i t : Nat) : Word :=
  let d0 := cw c.words k
  let d1 := cw c.words (k + 1)
  word ((bits d0 56 0 + t * bits d1 43 20 + i * bits d1 19 0) % 2 ^ 57)

/-- The bank rotation of an address of line i of tile t (R313). -/
def MxCmd.rotate (c : MxCmd) (k i t : Nat) (x : Word) : Word :=
  if bits x 56 56 = 1 then x ^^^ word (32 * ((i * bits (cw c.words (k + 1)) 46 44 + t) % 8)) else x

/-- The pieces of a line or row of n bytes, at rotated addresses. -/
def MxCmd.pieces (c : MxCmd) (k i t n : Nat) : List (Word × Nat) :=
  (cutRange (c.lineAddr k i t) n).map fun p => (c.rotate k i t (word (p.1.toNat % 2 ^ 57)), p.2)

/-- An error of a unit: its cause, and the failing address where there is one. -/
abbrev MxError := Nat × Option Word

/-- The bytes of a piece for a unit at a core: from the home or the banks, or, of an S page homed on the other die, from the die's
remote-data cache where it holds the sector (R316). -/
def State.mxBytes (s : State) (core : Nat) (u : EngUser) (x : Word × Nat) : List Byte :=
  match s.rdcHit (dieOfCore core) x.1 with
  | some d => sectorBytes d.data ((List.range x.2).map fun i => (x.1.toNat % 64 + i, i))
  | none =>
    match s.engPlace u x.1 false with
    | .ok p => memBytes s.mem p x.2
    | .error _ => []

/-- The bytes of some pieces, checked together (R316). -/
def State.mxRead (s : State) (core : Nat) (u : EngUser) (ps : List (Word × Nat)) : Except MxError (List Byte) :=
  match s.engRange u false ps with
  | .error e => .error (e.1, some e.2)
  | .ok _ => .ok (ps.flatMap (s.mxBytes core u))

/-- A is in the command's copy of vector registers (R314). -/
def MxCmd.aInRegs (c : MxCmd) : Bool := (c.kind == 1 || c.kind == 2) && bits (cw c.words 1) 58 57 == 1

/-- The pieces of the lines of a region in tile t of A, and of B (R312 to R314). -/
def MxCmd.aPieces (c : MxCmd) (r : Region) (t : Nat) : List (Word × Nat) :=
  if c.aInRegs then [] else (List.range r.rows).flatMap fun i => c.pieces 1 (r.i0 + i) t (lineOf c.af).1

/-- The pieces of the lines of a region in tile t of B. -/
def MxCmd.bPieces (c : MxCmd) (r : Region) (t : Nat) : List (Word × Nat) :=
  (List.range r.cols).flatMap fun j => c.pieces 3 (r.j0 + j) t (lineOf c.bf).1

/-- Equal lines of some bytes, one after another. -/
def cutLines (count n : Nat) (bs : List Byte) : List (List Byte) := (List.range count).map fun i => (bs.drop (i * n)).take n

/-- The lines of A for a region in tile t: from memory, or from the command's copy of vector registers (R312 to R314, R316). -/
def State.aLines (s : State) (core : Nat) (c : MxCmd) (r : Region) (t : Nat) : Except MxError (List (List Byte)) :=
  let n := (lineOf c.af).1
  if c.aInRegs then .ok (cutLines r.rows n (c.vbytes.drop ((t * c.m + r.i0) * n)))
  else
    match s.mxRead core c.user (c.aPieces r t) with
    | .error e => .error e
    | .ok bs => .ok (cutLines r.rows n bs)

/-- The lines of B for a region in tile t. -/
def State.bLines (s : State) (core : Nat) (c : MxCmd) (r : Region) (t : Nat) : Except MxError (List (List Byte)) :=
  match s.mxRead core c.user (c.bPieces r t) with
  | .error e => .error e
  | .ok bs => .ok (cutLines r.cols (lineOf c.bf).1 bs)

/-- The address of the scale of group g and column n (R315). -/
def MxCmd.scaleAddr (c : MxCmd) (g n : Nat) : Word := c.sb + word (g * bits (cw c.words 6) 15 0 + 2 * n)

/-- The pieces of the scales of a group for the columns of a region. -/
def MxCmd.scalePieces (c : MxCmd) (r : Region) (g : Nat) : List (Word × Nat) :=
  if c.grouped then cutRange (c.scaleAddr g r.j0) (2 * r.cols) else []

/-- The scales of a group for the columns of a region: 1 each without a table. -/
def State.scales (s : State) (core : Nat) (c : MxCmd) (g : Nat) (r : Region) : Except MxError (List FpVal) :=
  if c.grouped then
    match s.mxRead core c.user (c.scalePieces r g) with
    | .error e => .error e
    | .ok bs => .ok ((List.range r.cols).map fun j => bf16.decode (natOfBytes ((bs.drop (2 * j)).take 2)))
  else .ok (List.replicate r.cols (.fin false 1 0))

/-! Accumulators. -/

/-- A cell's key. -/
def cellKey (acc i j : Nat) : Nat := acc * 4096 + i * 64 + j

/-- The poison key of a cell of a core's accumulators (R411). -/
def cellPoison (core key : Nat) : Nat := 2 ^ 58 + core * 16384 + key

/-- A cell's bits. -/
def MatrixUnit.cell (m : MatrixUnit) (key : Nat) : Nat := ((mapGet m.acc key).getD 0).toNat

/-- Cells written; a cell of zeros is not listed. -/
def putCells (acc : Map (BitVec 32)) : List (Nat × Nat) → Map (BitVec 32)
  | [] => acc
  | (k, v) :: rest =>
    putCells (if v % 2 ^ 32 = 0 then mapErase acc k else mapSet acc k (BitVec.ofNat 32 v)) rest

/-- Cells of a core's unit written, their poison marks cleared (R411). -/
def State.setCells (s : State) (core : Nat) (cs : List (Nat × Nat)) : State :=
  let s := s.modCore core fun k => { k with mx := { k.mx with acc := putCells k.mx.acc cs } }
  { s with poison := s.poison.filter fun p => !cs.any fun c => cellPoison core c.1 == p }

/-- The cells of a region, row by row. -/
def Region.cells (r : Region) : List (Nat × Nat) :=
  (List.range r.rows).flatMap fun i => (List.range r.cols).map fun j => (i, j)

/-- A poisoned cell stands in a row or region. -/
def State.cellsPoisoned (s : State) (core : Nat) (acc : Nat) (cs : List (Nat × Nat)) : Bool :=
  decide (s.poison ≠ []) && cs.any fun c => s.poison.contains (cellPoison core (cellKey acc c.1 c.2))

/-! Groups (R56, R317). -/

/-- The exact sum of a list of products, a zero sum being −0 only when every product is (R56). -/
def sumExact : List FpVal → FpVal
  | [] => .fin false 0 0
  | x :: xs => xs.foldl FpVal.add x

/-- The floating-point values of a line of 16 elements. -/
def fpLine (code : Nat) (bs : List Byte) : List FpVal :=
  (List.range 16).map fun e =>
    match kindOf code with
    | .fp f => f.decode (elemOf code bs e)
    | .int w => .ofInt (sint w (elemOf code bs e))
    | _ => .nan

/-- The integers of a line of 16 elements. -/
def intLine (code : Nat) (bs : List Byte) : List Int :=
  (List.range 16).map fun e => sint (elemBits code) (elemOf code bs e)

/-- One group's new value of a cell (R56). -/
def groupCell (c : MxCmd) (old : Nat) (a b : List Byte) (scale : FpVal) : Nat :=
  if c.af = 6 then
    lowBits 32 (satInt32 (sint 32 old + (((intLine c.af a).zipWith (· * ·) (intLine c.bf b)).foldl (· + ·) 0)))
  else
    let sum := sumExact ((fpLine c.af a).zipWith FpVal.mul (fpLine c.bf b))
    toF32 ((ofF32 old).add (if c.grouped then sum.mul scale else sum))

/-- The cells of a region after a group, or the failure of its operands: A before B before the scales, each in the order of R77
(R316, R317). DEDUCED, notes/assumptions/70.md. -/
def State.groupCells (s : State) (core : Nat) (c : MxCmd) (r : Region) (g : Nat) : Except MxError (List (Nat × Nat)) :=
  match s.aLines core c r g with
  | .error e => .error e
  | .ok la =>
    match s.bLines core c r g with
    | .error e => .error e
    | .ok lb =>
      match s.scales core c g r with
      | .error e => .error e
      | .ok sc =>
        if s.cellsPoisoned core r.acc r.cells then .error (Cause.parityKill, none)
        else
          let mx := (s.core core).mx
          .ok (r.cells.map fun x =>
            let k := cellKey r.acc x.1 x.2
            (k, groupCell c (mx.cell k) (la.getD x.1 []) (lb.getD x.2 []) (sc.getD x.2 .nan)))

/-! Rows of ACCZ, ACCLD and ACCST (R318, R319). -/

/-- The bytes of a row of N elements. -/
def MxCmd.rowBytes (c : MxCmd) : Nat := c.n * elemBytes c.of_

/-- ACCLD's cell from an element. -/
def loadCell (of_ x : Nat) : Nat :=
  match kindOf of_ with
  | .fp f => if of_ = 5 then x else toF32 (f.decode x)
  | _ => x

/-- ACCST's element from a cell. -/
def storeElem (c : MxCmd) (x : Nat) : Nat :=
  if c.of_ = 5 ∨ c.of_ = 8 then x
  else
    match kindOf c.of_ with
    | .fp _ => convert (.fp fp32) (kindOf c.of_) c.rnd c.sat x
    | .int _ => convert (.int 32) (kindOf c.of_) c.rnd c.sat x
    | _ => 0

/-- The output bytes of row i of an ACCST. -/
def State.storeRow (s : State) (core : Nat) (c : MxCmd) (acc i : Nat) : List Byte :=
  let mx := (s.core core).mx
  (List.range c.n).flatMap fun j => bytesOfNat (elemBytes c.of_) (storeElem c (mx.cell (cellKey acc i j)))

/-- The digest after one row (R319). -/
def digestRow (d : Word) (row : List Byte) : Word :=
  (List.range ((row.length + 7) / 8)).foldl (fun d k => d.rotateLeft 1 ^^^ word (natOfBytes ((row.drop (8 * k)).take 8))) d

/-- The digest of an ACCST (R319). -/
def State.digestOf (s : State) (core : Nat) (c : MxCmd) (acc : Nat) : Word :=
  (List.range c.m).foldl (fun d i => digestRow d (s.storeRow core c acc i)) 0

/-- One row of ACCZ, ACCLD or ACCST (R318). -/
def State.rowUnit (s : State) (core : Nat) (r : MxRun) : Except MxError State :=
  let c := r.cmd
  let g := r.region
  let i := r.next
  let row := (List.range c.n).map fun j => (i, j)
  match c.kind with
  | 3 => .ok (s.setCells core (row.map fun x => (cellKey g.acc x.1 x.2, 0)))
  | 4 =>
    match s.mxRead core c.user (c.pieces 1 i 0 c.rowBytes) with
    | .error e => .error e
    | .ok bs =>
      .ok (s.setCells core (row.map fun x => (cellKey g.acc x.1 x.2, loadCell c.of_ (elemOf c.of_ bs x.2))))
  | _ =>
    if s.cellsPoisoned core g.acc row then .error (Cause.parityKill, none)
    else
      match s.engRange c.user true (c.pieces 1 i 0 c.rowBytes) with
      | .error e => .error (e.1, some e.2)
      | .ok ps => .ok ((s.engWrite c.user ps (s.storeRow core c g.acc i)).useBanks (clusterOf core) (slabRows ps))

/-! Time (R325, R326). -/

/-- The row pair of a bank that an address lies in, for a core; none in global memory. -/
def State.rowPair (s : State) (core : Nat) (a : Word) : Option (Nat × Nat × Nat) :=
  if bits a 56 56 = 0 then none
  else
    match s.slabCluster core a with
    | none => none
    | some cl =>
      let p := slabByte .slabLocal core (bits a 20 0)
      some (8 * cl + p.1, p.2 / 32 % 8, p.2 / 512)

/-- What the next unit of a run reads: the lines and scales of a tile, or a row of an ACCLD. -/
def MxRun.readPieces (r : MxRun) : List (Word × Nat) :=
  let c := r.cmd
  if c.multiplies then c.aPieces r.region r.next ++ c.bPieces r.region r.next ++ c.scalePieces r.region r.next
  else if c.kind = 4 then c.pieces 1 r.next 0 c.rowBytes
  else []

/-- What it writes: a row of an ACCST. -/
def MxRun.writePieces (r : MxRun) : List (Word × Nat) := if r.cmd.kind = 5 then r.cmd.pieces 1 r.next 0 r.cmd.rowBytes else []

/-- The row pairs that it needs of banks, by core, bank and pair. -/
def State.unitPairs (s : State) (r : MxRun) : List (Nat × Nat × Nat) :=
  ((r.readPieces.map (·.1)).filterMap fun a => s.rowPair r.cmd.user.core a).eraseDups

/-- F_t: row pairs of the busiest bank at 4 cycles each, or sectors of global memory (R325); a bank that other units share takes longer
(`State.mxFetching`). A row pair of another cluster's slab counts as one of a core of the own cluster. DESIGN CHOICE,
notes/assumptions/75.md. -/
def State.tileFetch (s : State) (r : MxRun) : Nat :=
  let pairs := s.unitPairs r
  let banks := (pairs.map fun p => (p.1, p.2.1)).eraseDups
  let most := banks.foldl (fun n b => Nat.max n (pairs.filter fun p => (p.1, p.2.1) == b).length) 0
  let secs := (((r.readPieces.map (·.1)).filter fun a => bits a 56 56 == 0).map fun a => a.toNat / 64).eraseDups.length
  Nat.max (4 * most) secs

/-- The time of one group: 16·h, or the tile's fetch when longer (R325). -/
def State.groupTime (s : State) (r : MxRun) : Nat := Nat.max (if r.cmd.bf = 4 ∨ r.cmd.bf = 6 then 32 else 16) (s.tileFetch r)

/-- What is left at the banks of a core's row pairs: an ACCLD's rows have their own time (R325). -/
def State.dropPairs (s : State) (core : Nat) : State :=
  (List.range 8).foldl (fun s k =>
    s.modCore (8 * clusterOf core + k) fun x =>
      { x with banks := x.banks.map fun b => (b.1, { b.2 with mxQ := mapErase b.2.mxQ core }) }) s

/-- The row pairs that a unit asks for: those of a tile, or those of an ACCLD's row that the row before did not bring. -/
def State.newPairs (s : State) (r : MxRun) : List (Nat × Nat × Nat) :=
  let ps := s.unitPairs r
  if r.cmd.multiplies ∨ r.next = 0 then ps
  else let old := s.unitPairs { r with next := r.next - 1 }; ps.filter fun p => !old.contains p

/-- A unit of a core asks the banks of its cluster for the row pairs of its next tile or row; rows of another cluster go by its network
port (R240, R326). -/
def State.askPairs (s : State) (core : Nat) (r : MxRun) : State :=
  (s.newPairs r).foldl (fun s p =>
    if clusterOf p.1 = clusterOf core then
      (s.modCore p.1 fun k => k.modBank p.2.1 fun b => { b with mxQ := mapSet b.mxQ core ((mapGet b.mxQ core).getD 0 + 1) }).pokeBank p.1 p.2.1
    else s.useBanks (clusterOf core) [(p.1, p.2.1, 2 * p.2.2), (p.1, p.2.1, 2 * p.2.2 + 1)]) s

/-- The end of a tile by the frames of the banks that it shares: those from its first request to its last row pair, 4 cycles each (R325,
R326). -/
def MxRun.fetchEnd (r : MxRun) (lastPair : Nat) : Nat :=
  if lastPair < r.asked then 0 else r.asked + r.load + 4 * (lastPair / 4 + 1 - r.asked / 4)

/-- A unit reads or writes local memory of a core in hand-over (R423). -/
def State.unitHeld (s : State) (r : MxRun) : Bool :=
  s.rowsHeld (((r.readPieces ++ r.writePieces).map (·.1)).filterMap fun a => s.rowPair r.cmd.user.core a)

/-- A unit of a core has not yet taken its last row pair at some bank (R326). -/
def State.mxFetching (s : State) (core : Nat) : Bool :=
  (List.range 8).any fun k => (List.range 8).any fun b =>
    (((s.core (8 * clusterOf core + k)).bank b).mxQ.any fun x => x.1 == core)

/-- The banks, home slices and the remote-data cache as a unit of a run leaves them (R246, R316). -/
def State.unitPass (s : State) (core : Nat) (r : MxRun) : State :=
  let die := dieOfCore core
  let rd := r.readPieces.map (·.1)
  let s := s.passLines (rd.filter fun a => (s.rdcHit die a).isNone) false
  (s.rdcPass die rd).passLines (r.writePieces.map (·.1)) true

/-- The time of one row (R325). -/
def MxCmd.rowTime (c : MxCmd) : Nat := if c.kind = 3 then 1 else (c.rowBytes + 63) / 64

/-- L0: the load time of the first operand source, at the core of the unit, which is B's where A comes from vector registers; it is hidden
when the fetch began during the last tile of the command before (R325, R326). DESIGN CHOICE, notes/assumptions/75.md. -/
def State.firstLoad (s : State) (core : Nat) (c : MxCmd) (hidden : Bool) : Nat × State :=
  if c.kind = 3 then (0, s)
  else if c.kind = 5 then (8, s)
  else if hidden then (0, s)
  else s.engLoadTime core c.core 20 true (word (bits (cw c.words (if c.aInRegs then 3 else 1)) 56 0))

/-- The time of the next unit of a run. -/
def State.unitTime (s : State) (r : MxRun) : Nat :=
  if r.cmd.multiplies then s.groupTime r else r.cmd.rowTime

/-! The unit. -/

/-- The units of a run's region: groups, or rows. -/
def MxRun.units (r : MxRun) : Nat := if r.cmd.multiplies then r.cmd.groups else r.cmd.m

/-- The next command of a unit's queue, without those that were removed (R308, R341). -/
def MatrixUnit.next (m : MatrixUnit) : Option MxCmd := m.queue.find? fun c => !c.failed

/-- The running command of a core's unit. -/
def State.setRun (s : State) (core : Nat) (r : Option MxRun) : State :=
  s.modCore core fun k => { k with mx := { k.mx with run := r } }

/-- The part of a core's unit. -/
def State.setPart (s : State) (core : Nat) (r : Option MxRun) : State :=
  s.modCore core fun k => { k with mx := { k.mx with part := r } }

/-- The unit of the trailing context of a pair posts nothing (R332). -/
def State.trails (s : State) (g : Nat) : Bool := match (s.ctx g).twin with | some t => !t.leader | none => false

/-- A command's queue entry is freed; a waiting pusher takes it, and the next command may start (R308, R322). -/
def State.endMx (s : State) (core : Nat) : State :=
  let t := ((s.setRun core none).grantMatrix core).postOnce 1 .mxCommandStart core
  match (s.core core).mx.run with
  | some r => t.lookDrain r.cmd.gid
  | none => t

/-- The command is complete: the context's most recent one (R283, R322). -/
def State.doneMx (s : State) (core : Nat) (c : MxCmd) : State :=
  let s := if s.sameCtx c.gid c.gen then s.modCtx c.gid fun x => { x with lastMx := some c.seq } else s
  s.endMx core

/-- A message of the unit about its running command; the trailing unit posts none, and the command completes, or, aborted, ends. -/
def State.mxMessage (s : State) (core : Nat) (r : MxRun) (waiting : Nat) (w0 w2 w3 : Word) : State :=
  if s.trails r.cmd.gid then (if waiting = 7 then s.endMx core else s.doneMx core r.cmd)
  else
    let t := (s.setRun core (some { r with waiting := waiting })).sendMsg (.posted r.cmd.gid ⟨r.cmd.gid, core, w0, word r.cmd.gid, w2, w3⟩ 0)
    t.2.post 1 .messageArrival (coreOf r.cmd.gid) t.1

/-- MXDONE is posted when the command asks for it; else it is complete (R322). -/
def State.notifyMx (s : State) (core : Nat) (r : MxRun) : State :=
  if bits (cw r.cmd.words 0) 25 25 = 1 then
    s.mxMessage core r 3 (messageHead 1 r.cmd.tag) (r.cmd.seq.setWidth 64) (if r.cmd.kind = 5 then r.digest else 0)
  else s.doneMx core r.cmd

/-- w2 of an MXERR (R322). -/
def mxErrWord (seq : BitVec 32) (cause unit member : Nat) : Word :=
  word (seq.toNat + 2 ^ 32 * cause + 2 ^ 40 * (unit % 4096) + 2 ^ 52 * (member % 16))

/-- The MXERR of a removed command of a core's queue: a cause and unit 0; the address, which the rules do not give, is a free value (R323).
DESIGN CHOICE, notes/assumptions/38.md. -/
def State.mxRemoved (s : State) (core cause : Nat) (d : MxCmd) : State :=
  let f := s.freeNat
  let m := f.2.sendMsg (.posted d.gid ⟨d.gid, core, messageHead 2 d.tag, word d.gid, mxErrWord d.seq cause 0 0, word (f.1 % 2 ^ 57)⟩ 6)
  m.2.post 1 .messageArrival (coreOf d.gid) m.1

/-- The context's later commands are removed, each with an MXERR, and its entry stays until that is accepted; the trailing unit posts
none and frees them at once (R323, R332, R341). -/
def State.dropLaterMx (s : State) (core : Nat) (c : MxCmd) : State :=
  let mine := fun (d : MxCmd) => d.gid == c.gid && d.gen == c.gen && !d.failed
  let later := (s.core core).mx.queue.filter mine
  if s.trails c.gid then
    let s := s.modCore core fun k => { k with mx := { k.mx with queue := k.mx.queue.filter fun d => !mine d } }
    later.foldl (fun s _ => s.grantMatrix core) s
  else
    let s := s.modCore core fun k => { k with mx := { k.mx with queue := k.mx.queue.map fun d => if mine d then { d with failed := true } else d } }
    later.foldl (fun s d => s.mxRemoved core Cause.engineError d) s

/-- The entry of a removed command is freed (R308, R341). -/
def State.freeRemovedMx (s : State) (core seq : Nat) : State :=
  let gone := fun (d : MxCmd) => d.failed && d.seq.toNat == seq
  if (s.core core).mx.queue.any gone then
    (s.modCore core fun k => { k with mx := { k.mx with queue := k.mx.queue.filter fun d => !gone d } }).grantMatrix core
  else s

/-- MX_FAULT: a dynamic fault stops the command before a unit (R323); the messages of the removed later commands leave before its own, and
an address the rules do not give is a free value. DESIGN CHOICE, notes/assumptions/38.md. -/
def State.mxFault (s : State) (core : Nat) (r : MxRun) (cause unit member : Nat) (addr : Option Word) : State :=
  let f := s.freeNat
  let s := if addr.isSome then s else f.2
  let a := addr.getD (word (f.1 % 2 ^ 57))
  let s := (s.recordEngine r.cmd.gid (engineTval r.cmd.seq cause 0) a).dropLaterMx core r.cmd
  s.mxMessage core r 7 (messageHead 2 r.cmd.tag) (mxErrWord r.cmd.seq cause unit member) (word (bits a 56 0))

/-- The region of a command that starts by zeroing it (R317, R323, R327). -/
def State.zeroRegion (s : State) (core : Nat) (r : MxRun) : State :=
  let z := r.cmd.kind == 2 || (r.cmd.kind == 6 && bits (cw r.cmd.words 0) 8 8 == 1)
  if z then s.setCells core (r.region.cells.map fun x => (cellKey r.region.acc x.1 x.2, 0)) else s

/-- A run's next unit begins: it asks for what it reads, and ends after a load time and its own at the earliest. -/
def State.beginUnit (s : State) (core : Nat) (r : MxRun) (load : Nat) : State :=
  let r := { r with asked := s.cycle, load := load }
  let t := s.unitTime r
  ((if r.part then s.setPart core (some r) else s.setRun core (some r)).askPairs core r).post (load + t) .mxGroup core (if r.part then 1 else 0)

/-- The first unit of a run is put on the agenda. -/
def State.beginUnits (s : State) (core : Nat) (r : MxRun) : State :=
  let hidden := !r.part && (s.core core).mx.fetched == some r.cmd.seq
  let t := ((s.dropPairs core).zeroRegion core r).firstLoad core r.cmd hidden
  t.2.beginUnit core r t.1

/-- Both units of a pair have reached their ACCST (R332). -/
def State.pairAtDigest (s : State) (g : Nat) : Bool :=
  match (s.ctx g).twin with
  | none => false
  | some t =>
    match (s.core (s.at t.partner)).mx.run with
    | some r => r.cmd.gid == t.partner && r.cmd.kind == 5 && r.waiting == 4
    | none => false

/-- The command at the head of the queue starts: a GMMA leaves for its sequencer, an ACCST of a pair waits for the other digest
(R308, R328, R332). -/
def State.startMx (s : State) (core : Nat) (c : MxCmd) : State :=
  let r : MxRun := ⟨c, 0, 0, 0, false, 0, 0, 0, 0⟩
  if c.kind = 6 then
    let kiln := clusterOf core / 2 * 2
    ((s.setRun core (some { r with waiting := 5 })).modCluster kiln fun x => { x with gmmaQ := x.gmmaQ ++ [⟨core, c, 0, none⟩] }).postOnce 1
      .gmmaAdmit kiln
  else if c.kind = 5 then
    let r := { r with digest := s.digestOf core c r.region.acc }
    if (s.ctx c.gid).twin.isSome then
      let s := s.setRun core (some { r with waiting := 4 })
      if s.pairAtDigest c.gid then s.post 1 .accstDigestCompare (core / 2 * 2) else s
    else (s.setRun core (some r)).beginUnits core r
  else (s.setRun core (some r)).beginUnits core r

/-! Units (R317). -/

/-- A part's end goes to the sequencer: what is the member; its fault, if any, is noted for the first faulting member. A part that ran to
its end takes the array's tail of 8 cycles besides (R325, R329). -/
def State.endPart (s : State) (core : Nat) (p : MxRun) (after : Nat) (fault : Option (Nat × Nat × Option Word)) : State :=
  let kiln := clusterOf core / 2 * 2
  let s := s.setPart core (some { p with waiting := 1 })
  let s := s.modCluster kiln fun x =>
    match x.gmmaRun, fault with
    | some j, some (cause, unit, a) =>
      let worse := match j.fault with | some f => decide (p.member < f.1) | none => true
      if worse then { x with gmmaRun := some { j with fault := some (p.member, cause, unit, (a.getD 0).toNat) } } else x
    | _, _ => x
  s.post after .gmmaPartDone kiln p.member

/-- A waiting part of a member starts; one of a killed context, or without a tile, ends with no group (R310, R327, R328, R331). -/
def State.startPart (s : State) (core : Nat) (p : MxRun) : State :=
  if s.sameCtx p.cmd.gid p.cmd.gen ∧ p.cmd.memberTiles p.member ≠ 0 then
    let p := { p with waiting := 0 }
    ((s.setPart core (some p)).modCore core fun k => { k with mx := { k.mx with fetched := none } }).beginUnits core p
  else s.endPart core p 1 none

/-- MX_COMMAND_START: the unit starts a GMMA part that waits, ahead of its queue, unless its context is gone, or its next command (R308,
R324, R328, R331); or, with what = 1, its message has been accepted, and the command goes on, or, from 16 on, that of a removed command
with this sequence number (R341). -/
def execMxCommandStart (s : State) : Host.Outcome State Fault Refusal :=
  let core := s.arg.who
  let mx := (s.core core).mx
  if s.arg.what ≠ 0 then
    if s.swappedOut s.arg.val then .next (s.post 64 .mxCommandStart core s.arg.what s.arg.val)
    else if 16 ≤ s.arg.what then .next (s.freeRemovedMx core (s.arg.what - 16))
    else
    match mx.run with
    | none => .next s
    | some r =>
      if r.waiting = 3 then .next (s.doneMx core r.cmd)
      else if r.waiting = 6 then .next (s.notifyMx core r)
      else if r.waiting = 7 then .next (s.endMx core)
      else .next s
  else if mx.halted then .next s
  else
    match mx.part, mx.run, mx.next with
    | some p, none, _ => .next (if p.waiting = 5 then s.startPart core p else s)
    | some p, some r, _ => .next (if p.waiting = 5 ∧ r.waiting = 5 then s.startPart core p else s)
    | none, none, some c =>
      .next ((s.modCore core fun k => { k with mx := { k.mx with queue := k.mx.queue.erase c } }).startMx core c)
    | _, _, _ => .next s

/-- One unit of a run takes effect, or fails. -/
def State.applyUnit (s : State) (core : Nat) (r : MxRun) : Except MxError State :=
  if r.cmd.multiplies then
    match s.groupCells core r.cmd r.region r.next with
    | .error e => .error e
    | .ok cs => .ok (s.setCells core cs)
  else s.rowUnit core r

/-- After the last unit of a run: the writes' acknowledgement, or the array's tail of 8 cycles (R325). -/
def State.lastUnit (s : State) (core : Nat) (r : MxRun) : State :=
  let s := s.setRun core (some { r with waiting := 1 })
  if r.cmd.kind = 5 then
    let t := s.engAckTime core r.cmd.core 20 (word (bits (cw r.cmd.words 1) 56 0))
    t.2.post t.1 .mxWritesAcked core
  else s.post (if r.cmd.multiplies then 8 else 0) .mxWritesAcked core

/-- During the last unit of a command that writes no memory, a tile or the last row of one without tiles, the fetch of the queued command
after it begins (R324, R325). DESIGN CHOICE, notes/assumptions/75.md. -/
def State.fetchAhead (s : State) (core : Nat) (r : MxRun) : State :=
  if r.cmd.kind = 5 ∨ r.next + 1 ≠ r.units then s
  else s.modCore core fun k => { k with mx := { k.mx with fetched := k.mx.next.map MxCmd.seq } }

/-- A unit that reaches a boundary while its core halts goes no further; what is left of a multiplying command waits (R330). -/
def State.postUnit (s : State) (core : Nat) (r : MxRun) : State :=
  if (s.core core).mx.halted ∧ r.cmd.multiplies then s else s.beginUnit core r 0

/-- A unit of a GMMA part: its tiles one after another (R327, R329). One of a killed context stops at the boundary (R331). -/
def State.partUnit (s : State) (core : Nat) (p : MxRun) : State :=
  let alive := s.sameCtx p.cmd.gid p.cmd.gen
  match s.applyUnit core p with
  | .error e => s.endPart core p 1 (if alive then some (e.1, p.next, e.2) else none)
  | .ok s =>
    let s := s.unitPass core p
    if !alive then s.endPart core p 1 none
    else if p.next + 1 < p.cmd.groups then
      let p := { p with next := p.next + 1 }
      (s.setPart core (some p)).postUnit core p
    else if p.tile + 1 < p.cmd.memberTiles p.member then
      let p := { p with next := 0, tile := p.tile + 1 }
      ((s.setPart core (some p)).zeroRegion core p).postUnit core p
    else s.endPart core p 8 none

/-- A unit of the unit's own command; one of a killed context stops at the boundary (R331). -/
def State.runUnit (s : State) (core : Nat) (r : MxRun) : State :=
  let alive := s.sameCtx r.cmd.gid r.cmd.gen
  match s.applyUnit core r with
  | .error e => if alive then s.mxFault core r e.1 r.next 0 e.2 else s.endMx core
  | .ok s =>
    let s := (s.unitPass core r).fetchAhead core r
    let r := { r with next := r.next + 1 }
    if !alive then s.endMx core
    else if r.next < r.units then (s.setRun core (some r)).postUnit core r
    else s.lastUnit core r

/-- MX_GROUP: one group of a multiplying command or part, or one row of another (R317, R318), takes effect at its end, once the frames of
its banks have passed and its pages have been walked for (R73, R326). A halted unit, or one whose context is killed, stops there (R330,
R331); one that needs the banks of a core in hand-over waits (R423). -/
def execMxGroup (s : State) : Host.Outcome State Fault Refusal :=
  let core := s.arg.who
  let mx := (s.core core).mx
  match if s.arg.what = 1 then mx.part else mx.run with
  | none => .next s
  | some r =>
    if r.waiting ≠ 0 then .next s
    else if r.cmd.multiplies && s.mxFetching core then .next (s.post 1 .mxGroup core s.arg.what)
    else if r.cmd.multiplies && decide (s.cycle < r.fetchEnd mx.lastPair) then
      .next (s.post (r.fetchEnd mx.lastPair - s.cycle) .mxGroup core s.arg.what)
    else if s.unitHeld r then .next (s.post 64 .mxGroup core s.arg.what)
    else
      match s.lookUp (s.engAsks r.cmd.user false r.readPieces ++ s.engAsks r.cmd.user true r.writePieces) with
      | (false, t) => .next (t.post 16 .mxGroup core s.arg.what)
      | (true, t) => .next (if r.part then t.partUnit core r else t.runUnit core r)

/-! Completion (R322). -/

/-- A refused counter add: OBJERR and the sticky flag; the command still counts as complete (R322). -/
def State.refusedMx (s : State) (core : Nat) (r : MxRun) (cause : Nat) : State :=
  (s.modCtx r.cmd.gid fun x => { x with eerr := true }).mxMessage core r 6 (messageHead 0x40 r.cmd.tag) (word (bits (cw r.cmd.words 7) 56 0))
    (word cause)

/-- MX_WRITES_ACKED: every write is acknowledged; the counter add leaves, from the leading unit alone (R322, R332). -/
def execMxWritesAcked (s : State) : Host.Outcome State Fault Refusal :=
  let core := s.arg.who
  match (s.core core).mx.run with
  | none => .next s
  | some r =>
    if r.waiting ≠ 1 then .next s
    else if !s.sameCtx r.cmd.gid r.cmd.gen then .next (s.endMx core)
    else if bits (cw r.cmd.words 0) 26 26 = 0 ∨ s.trails r.cmd.gid then .next (s.notifyMx core r)
    else
      let a := word (bits (cw r.cmd.words 7) 56 0)
      match s.engObjCheck r.cmd.user a with
      | some cause => .next (s.refusedMx core r cause)
      | none =>
        let q := s.engReq r.cmd.gid 0x2B a 1 1 core
        .next ((s.fresh.2.setRun core (some { r with waiting := 2 })).sendRequest q)

/-- MX_CTR_REPLY: the counter add is answered (R322). -/
def execMxCtrReply (s : State) : Host.Outcome State Fault Refusal :=
  match (s.msg s.arg.what).bind engineAnswer with
  | none => .next s
  | some (q, ans) =>
    if s.swappedOut q.ctxid then .next (s.post 64 .mxCtrReply s.arg.who s.arg.what)
    else
    let s := s.dropMsg s.arg.what
    let core := q.lane
    match (s.core core).mx.run, ans with
    | some r, some cause =>
      if r.waiting ≠ 2 ∨ r.cmd.gid ≠ q.ctxid ∨ r.cmd.gen ≠ q.gen then .next s
      else if !s.sameCtx r.cmd.gid r.cmd.gen then .next (s.endMx core)
      else if cause = 0 then .next (s.notifyMx core r)
      else .next (s.refusedMx core r cause)
    | _, _ => .next s

/-! Kiln tiles (R327 to R329). -/

/-- The core of member r of a GMMA, in the pusher's kiln (R327). -/
def memberCore (kiln r : Nat) : Nat := 8 * (kiln + r / 8) + r % 8

/-- MEMBERS. -/
def MxCmd.memberCount (c : MxCmd) : Nat := bits (cw c.words 6) 23 16

/-- GMMA_ADMIT: the sequencer admits the next GMMA: an absent member faults it, else every member receives its part (R328, R329). -/
def execGmmaAdmit (s : State) : Host.Outcome State Fault Refusal :=
  let kiln := s.arg.who
  let x := s.cluster kiln
  match x.gmmaRun, if x.halted then [] else x.gmmaQ with
  | none, j :: rest =>
    let s := s.modCluster kiln fun x => { x with gmmaQ := rest }
    match (s.core j.core).mx.run with
    | none => .next (s.postOnce 1 .gmmaAdmit kiln)
    | some r =>
      let ms := List.range j.cmd.memberCount
      match ms.find? fun m => !(s.core (memberCore kiln m)).present with
      | some m => .next ((s.mxFault j.core r Cause.absentCore 0 m none).postOnce 1 .gmmaAdmit kiln)
      | none =>
        let s := s.modCluster kiln fun x => { x with gmmaRun := some { j with left := ms.length } }
        .next (ms.foldl (fun s m =>
          (s.setPart (memberCore kiln m) (some ⟨j.cmd, 0, 0, m, true, 0, 5, 0, 0⟩)).postOnce 1 .mxCommandStart (memberCore kiln m)) s)
  | _, _ => .next s

/-- The part slot of a member whose part has ended is free, and its unit goes on (R328). -/
def State.freePart (s : State) (core : Nat) : State :=
  if (s.core core).mx.part.any fun p => p.waiting == 1 then (s.setPart core none).postOnce 0 .mxCommandStart core else s

/-- GMMA_PART_DONE: a part is done; with the last one the GMMA completes once, at the pusher's unit, or faults there for its first
faulting member (R328, R329). -/
def execGmmaPartDone (s : State) : Host.Outcome State Fault Refusal :=
  let kiln := s.arg.who
  let s := s.freePart (memberCore kiln s.arg.what)
  match (s.cluster kiln).gmmaRun with
  | none => .next s
  | some j =>
    if 1 < j.left then .next (s.modCluster kiln fun x => { x with gmmaRun := some { j with left := j.left - 1 } })
    else
      let s := (s.modCluster kiln fun x => { x with gmmaRun := none }).postOnce 1 .gmmaAdmit kiln
      match (s.core j.core).mx.run with
      | none => .next s
      | some r =>
        if !s.sameCtx j.cmd.gid j.cmd.gen then .next (s.endMx j.core)
        else
          match j.fault with
          | some (m, cause, unit, a) => .next (s.mxFault j.core r cause unit m (some (word a)))
          | none => .next ((s.setRun j.core (some { r with waiting := 1 })).post 0 .mxWritesAcked j.core)

/-! Twins (R332). -/

/-- ACCST_DIGEST_COMPARE: equal digests let the leading unit write its rows; different ones fault both with TWIN_MISMATCH, which
counts as a resolved mismatch against both cores (R332, R418). -/
def execAccstDigestCompare (s : State) : Host.Outcome State Fault Refusal :=
  let lead := s.arg.who
  match (s.core lead).mx.run, (s.core (lead + 1)).mx.run with
  | some a, some b =>
    if a.waiting ≠ 4 ∨ b.waiting ≠ 4 then .next s
    else if a.digest = b.digest then
      let s := s.setRun (lead + 1) (some { b with waiting := 1 })
      let s := s.post 0 .mxWritesAcked (lead + 1)
      let a := { a with waiting := 0 }
      .next ((s.setRun lead (some a)).beginUnits lead a)
    else
      let s := s.scorePair lead 512
      .next ((s.mxFault lead a Cause.twinMismatch 0 0 (some 0)).mxFault (lead + 1) b Cause.twinMismatch 0 0 (some 0))
  | _, _ => .next s

end Sys2Proof.Machine
end

