-- ==== Sys2Proof/Machine/Ending.lean ====
section
/-!
DEFINITION. How contexts end: QUIT_COMPLETE and KILL_COMPLETE (spec/06_contexts_and_placement.md R169, R174,
spec/18_traps_and_preemption.md R381 to R384, spec/21_reliability_and_leases.md R417).
-/
namespace Sys2Proof.Machine

/-! Freeing. -/

/-- The steps on the agenda that concern one context. -/
def contextEvents : List Instr :=
  [.fetch, .parkResume, .resultReturn, .waittDeadline, .watchdogExpiry, .probeEcho, .quitComplete, .killComplete, .escalationLogged,
   .asyncCauseTaken]

/-- The steps of a context taken off the agenda. -/
def State.unpostContext (s : State) (g : Nat) : State :=
  { s with agenda := s.agenda.filter fun d => !(d.arg.who == g && contextEvents.contains d.ev) }

/-- The image of a context that is out of its slot is given up (R161). -/
def State.dropImage (s : State) (g : Nat) : State := if (s.ctx g).slot.isSome then s else s.imageOut g

/-- A slot reserved for a context is reserved no more (R154). -/
def State.dropReserved (s : State) (g : Nat) : State :=
  s.modCore (s.at g) fun k =>
    { k with slots := k.slots.map fun u => if u.2.reserved = some g then (u.1, { u.2 with reserved := none }) else u }

/-- A KILL that waits for records goes on when the last of them is written (R384). -/
def State.tellKillers (s : State) (g : Nat) : State :=
  s.ctxs.foldl (fun s x =>
    match x.2.wait with
    | .kills gs =>
      if gs.contains g then
        let left := gs.filter fun h => h != g
        let s := s.modCtx x.1 fun c => { c with wait := .kills left }
        if left = [] then s.completeHeld x.1 [setS x.2.dest (word (x.2.answer.getD 0))] else s
      else s
    | _ => s) s

/-- A context becomes Free: its number, its image and its slot, which may be filled from the next cycle on (R174, R177, R381). -/
def State.freeContext (s : State) (g : Nat) : State :=
  let c := s.ctx g
  let core := s.at g
  let s := ((((s.dropImage g).dropReserved g).unready g).unpostContext g).modShadow g fun x => { x with ctxs := x.ctxs.filter fun h => h != g }
  let s := { s with ctxs := mapErase s.ctxs g }
  let s := match c.slot with
    | none => s
    | some k => (s.modCore core fun x => { x with fillAt := Nat.max x.fillAt (s.cycle + 1) }).emptySlot core k 1
  ((s.lessLive c.packet).tellKillers g).kickPlacing

/-! Engine commands of a context. -/

/-- The matrix command belongs to this context. -/
def MxCmd.isOf (c : MxCmd) (g : Nat) (gen : BitVec 12) : Bool := c.gid == g && c.gen == gen

/-- The copy command belongs to this context. -/
def CpCmd.isOf (c : CpCmd) (g : Nat) (gen : BitVec 12) : Bool := c.gid == g && c.gen == gen

/-- An engine still holds a command of the context. -/
def State.engineBusy (s : State) (g : Nat) (gen : BitVec 12) : Bool :=
  let mx := (s.core (s.at g)).mx
  let cl := s.cluster (clusterOf (s.at g))
  mx.queue.any (fun c => c.isOf g gen && !c.failed) || mx.run.any (fun r => r.cmd.isOf g gen)
    || cl.cpQueue.any (fun c => c.isOf g gen && !c.failed)
    || cl.lanes.any fun l => l.2.cmd.any fun c => c.isOf g gen

/-- Free entries of a copy queue go to the pushers that wait (R282). -/
def State.grantAllCopy (s : State) (cl : Nat) : Nat → State
  | 0 => s
  | n + 1 => if 64 ≤ (s.cluster cl).cpQueue.length then s else (s.grantCopy cl).grantAllCopy cl n

/-- Free entries of a matrix queue go to the pushers that wait (R308). -/
def State.grantAllMatrix (s : State) (core : Nat) : Nat → State
  | 0 => s
  | n + 1 => if 32 ≤ (s.core core).mx.used then s else (s.grantMatrix core).grantAllMatrix core n

/-- The messages that the engines post for a context are given up with it. -/
def State.dropEngineMessages (s : State) (g : Nat) : State :=
  { s with net := s.net.filter fun m =>
      match m.body with
      | .posted dest _ src => !(dest == g && [0, 1, 5, 6].contains src)
      | _ => true }

/-- A lane of a killed context whose command has no unit to stop at: its action's wait was removed, its message given up, or its
partition halted (R272, R381). -/
def State.stopLane (s : State) (cl g : Nat) (gen : BitVec 12) (removed : Bool) (l : Nat) : State :=
  let x := s.cluster cl
  match (x.lane l).cmd with
  | none => s
  | some c =>
    let w := (x.lane l).waiting
    if c.isOf g gen && (decide (3 ≤ w) || (w == 2 && removed) || (w == 0 && x.cpHalted)) then s.endCopy cl l c else s

/-- The matrix unit's command of a killed context likewise; a GMMA still in its sequencer's queue leaves it (R328, R331). -/
def State.stopMatrix (s : State) (core g : Nat) (gen : BitVec 12) (removed : Bool) : State :=
  let mx := (s.core core).mx
  let kiln := clusterOf core / 2 * 2
  match mx.run with
  | none => s
  | some r =>
    if !r.cmd.isOf g gen then s
    else if r.waiting = 5 then
      if (s.cluster kiln).gmmaQ.any fun j => j.core == core then
        (s.modCluster kiln fun x => { x with gmmaQ := x.gmmaQ.filter fun j => j.core != core }).endMx core
      else s
    else if r.waiting = 3 ∨ r.waiting = 4 ∨ r.waiting = 6 ∨ r.waiting = 7 ∨ (r.waiting = 2 ∧ removed) ∨ (r.waiting = 0 ∧ mx.halted) then s.endMx core
    else s

/-- Step 3 of a kill: a completion action on a wait list is removed there, and commands without a boundary to stop at end (R381).
DEDUCED, notes/assumptions/48.md. -/
def State.cancelEngines (s : State) (g : Nat) (gen : BitVec 12) : State :=
  let core := s.at g
  let cl := clusterOf core
  let mine := fun (e : WaitEntry) => e.req.ctxid == g && e.req.gen == gen && e.req.eng != 0
  let es := (s.slices.flatMap fun x => x.2.waits).filter mine
  let s := if es = [] then s else s.removeWaits mine
  let s := s.modCtx g fun c => { c with kill := c.kill.map fun k => { k with waits := k.waits + es.length } }
  let s := s.dropEngineMessages g
  let s := (List.range 4).foldl (fun s l => s.stopLane cl g gen (es.any fun e => e.req.eng == 2 && e.req.lane == l) l) s
  let s := s.stopMatrix core g gen (es.any fun e => e.req.eng == 1)
  (s.grantAllCopy cl 64).grantAllMatrix core 32

/-- A request of the context is still on its way to its home. -/
def State.requestOut (s : State) (g : Nat) (gen : BitVec 12) : Bool :=
  s.net.any (fun m => match m.body with | .request r => r.ctxid == g && r.gen == gen && r.eng != 3 | _ => false)
    || s.slices.any fun x => (x.2.objQ ++ x.2.asking).any fun r => r.ctxid == g && r.gen == gen && r.eng != 3

/-! QUIT (R174). -/

/-- The join add of a context that came from a task record (R169). The packet counts the context until the answer. -/
def State.joinAdd (s : State) (g : Nat) : State :=
  let c := s.ctx g
  if c.join = 0 then s
  else
    let r := s.plainReq 0x2B (c.join.setWidth 64) 1 g c.gen 3 0 ((s.partOfCore (s.at g)).getD 0) (c.packet.getD 0xFFFFFFFF)
    (s.fresh.2.countLive c.packet 1).sendRequest r

/-- The end of a drained context; one of a pair makes the join add. -/
def State.finishQuit (s : State) (g : Nat) (join : Bool) : State :=
  let s := if join then s.joinAdd g else s
  ((s.dropMatches g).dropMessages g).2.freeContext g

/-- The other context of a pair has drained too (R417). -/
def State.partnerDrained (s : State) (g : Nat) : Bool :=
  let p := s.ctx g
  decide (p.wait = .drain) && p.phase == 2 && p.rcause == 0

/-- A drained context raises what was recorded, with TRAPPC the QUIT's address (R190), or ends; a pair ends together. -/
def State.drained (s : State) (g : Nat) : State :=
  let c := s.ctx g
  if c.rcause ≠ 0 then (s.setCtx g { c with phase := 0 }).raiseRecorded g
  else
    match c.twin with
    | none => s.finishQuit g true
    | some t =>
      if s.partnerDrained t.partner then (s.finishQuit g t.leader).finishQuit t.partner (!t.leader)
      else (s.setCtx g { c with phase := 2 }).post 16 .quitComplete g

/-- The second part of a drain: once the echoes are back and the engines' commands are done, it ends (R174). -/
def State.drainOn (s : State) (g : Nat) : State :=
  let c := s.ctx g
  if c.probes ≠ [] ∨ s.engineBusy g c.gen then s.postSoon 16 .quitComplete g
  else (s.setCtx g { c with touch := 0 }).drained g

/-- QUIT_COMPLETE: how far the drain of a QUIT has come (R174): registers, the relaxed accesses' acceptance, the probes' echoes, the
engines' commands. It is looked at whenever one of these comes to its end (`State.lookDrain`), and every 16 cycles. -/
def execQuitComplete (s : State) : Host.Outcome State Fault Refusal :=
  let g := s.arg.who
  let c := s.ctx g
  if c.wait ≠ .drain ∨ c.kill.isSome then .next s
  else if c.st = .swapped then .next (s.postSoon 16 .quitComplete g)
  else if c.phase = 0 then
    if c.pend ≠ [] ∨ !s.allAccepted g then .next (s.postSoon 16 .quitComplete g)
    else .next (((s.startProbes g (BitVec.allOnes 64)).modCtx g fun c => { c with phase := 1 }).drainOn g)
  else .next (s.drainOn g)

/-! Killing (R381). -/

/-- A kill-complete record k0 to k7 (R382). -/
def State.killRecord (s : State) (g : Nat) (k : KillInfo) (msgs seq : Nat) : List Word :=
  let c := s.ctx g
  [word (g + 2 ^ 32 * k.oldGen + 2 ^ 44 * k.cause + 2 ^ 52 * c.twin.isSome.toNat),
   word (c.domain.toNat + 2 ^ 16 * (c.packet.getD 0 % 4096)), word (bits k.pc 56 0), k.tval, s.time (dieOfCore (s.at g)),
   word k.killer, word (k.engcmds % 65536 + 2 ^ 16 * (k.waits % 65536) + 2 ^ 32 * msgs), word (seq % 2 ^ 32)]

/-- The last steps of a kill: wait-list entries, arrival matches, messages, the record, and the context is Free. -/
def State.finishKill (s : State) (g : Nat) (k : KillInfo) : State :=
  let mine := fun (e : WaitEntry) => e.req.ctxid == g && e.req.gen.toNat == k.oldGen
  let n := ((s.slices.flatMap fun x => x.2.waits).filter mine).length
  let s := if n = 0 then s else s.removeWaits mine
  let m := (s.dropMatches g).dropMessages g
  let s := m.2
  let v := (s.partOfCtx g).getD 0
  let rec_ := s.killRecord g { k with waits := k.waits + n } m.1 (s.part v).killLog.seq
  let s := s.modPart v fun p => { p with killLog := p.killLog.push 1024 rec_ }
  let s := match (s.ctx g).packet with
    | none => s
    | some p => s.modPacket (p / 4096) (p % 4096) fun q => { q with killed := true }
  s.freeContext g

/-- KILL_COMPLETE: how far a kill has come, looked at every 16 cycles (R381): the engines, the relaxed accesses' acceptance, the
probes' echoes, and then its record. That of a Swapped context goes on once its partition is back. -/
def execKillComplete (s : State) : Host.Outcome State Fault Refusal :=
  let g := s.arg.who
  match (s.ctx g).kill with
  | none => .next s
  | some k =>
    let gen := BitVec.ofNat 12 k.oldGen
    if (s.cluster (clusterOf (s.at g))).leasedCore = some (s.at g) ∨ (s.ctx g).st = .swapped then .next (s.post 16 .killComplete g)
    else if (s.ctx g).phase ≠ 3 then
      let s := s.cancelEngines g gen
      if s.engineBusy g gen ∨ !s.allAccepted g then .next (s.post 16 .killComplete g)
      else .next (((s.startProbes g (BitVec.allOnes 64)).modCtx g fun c => { c with phase := 3 }).post 16 .killComplete g)
    else if (s.ctx g).probes ≠ [] ∨ s.requestOut g gen then .next (s.post 16 .killComplete g)
    else .next (s.finishKill g ((s.ctx g).kill.getD k))

end Sys2Proof.Machine
end

