-- ==== Sys2Proof/Machine/Dispatcher.lean ====
section
/-!
DEFINITION. The dispatcher of a die: DISPATCHER_TAKE, PACKET_VERIFY, DEPCTR_GRANT, DEPCTR_RETRY, NOTBEFORE_REACHED, PLACE_CONTEXT,
PACKET_COMPLETE and PURGE (spec/05_launch.md R138 to R145, spec/03_address_space.md R79, R80,
spec/06_contexts_and_placement.md R149 to R157, spec/23_retirement_and_recovery.md R442).
-/
namespace Sys2Proof.Machine

/-! Words of a packet (R140). -/

/-- A word of a packet. -/
def Packet.w (p : Packet) (k : Nat) : Word := p.words.getD k 0

/-- The number of contexts, or pairs. -/
def Packet.count (p : Packet) : Nat := bits (p.w 5) 47 32

/-- The placement kind. -/
def Packet.place (p : Packet) : Nat := bits (p.w 5) 55 48

/-- Every context runs as a twin pair. -/
def Packet.twin (p : Packet) : Bool := bits (p.w 0) 57 57 == 1

/-- The dependence counter. -/
def Packet.depctr (p : Packet) : Word := word (bits (p.w 8) 56 0)

/-- The completion counter. -/
def Packet.donectr (p : Packet) : Word := word (bits (p.w 10) 56 0)

/-- A request of a die's dispatcher for a packet: a CWAIT or QGET at its home distance, the completion's add at pod scope (R95, R144). Its
QGET carries .nw: a queue that another consumer emptied meanwhile is left, not waited on (R100, R139).
DESIGN CHOICE, notes/assumptions/63.md. -/
def State.dispatcherReq (s : State) (die idx : Nat) (p : Packet) (op : Nat) (addr operand : Word) : ObjReq :=
  { s.plainReq op addr operand (0xFFFFFFF0 + die) (BitVec.ofNat 12 Config.moduleNumber) 0 p.order p.vf idx with
    nw := op == 0x34, scope := if op = 0x2B then .pod else dieScope die addr }

/-! Taking packets (R139). -/

/-- The pending packets of a partition in a die's table. -/
def State.pendingOf (s : State) (die v : Nat) : Nat := ((s.die die).packets.filter fun p => p.2.vf == v).length

/-- The dispatch queue that a die's dispatcher would take from for a partition: of those homed on the die, the one of highest
priority that is not empty. -/
def State.queueToTake (s : State) (die v : Nat) : Option (Nat × Word) :=
  let p := s.part v
  [3, 2, 1, 0].findSome? fun (k : Nat) =>
    let a : Word := (p.dq.toList.getD k 0).setWidth 64
    let o := s.object a
    if a ≠ 0 ∧ homeDie a = die ∧ o.tag = 5 ∧ o.d 2 ≠ o.d 3 then some (k, a) else none

/-- The next partition to serve, round robin by function number after the last one served. -/
def State.partitionToServe (s : State) (die : Nat) : Option (Nat × Nat × Word) :=
  let last := (s.die die).rrVf
  (List.range 64).findSome? fun i =>
    let v := (last + i) % 64 + 1
    let p := s.part v
    if p.enable && decide (s.pendingOf die v < p.plimit.toNat) then (s.queueToTake die v).map fun q => (v, q) else none

/-- A free index of a die's table of 4,096 pending packets. -/
def State.freePacket (s : State) (die : Nat) : Option Nat := (List.range 4096).find? fun i => (s.packet die i).isNone

/-- A new entry of the table, whose packet is under way. -/
def Packet.taken (v prio order : Nat) : Packet := ⟨[], v, prio, order, 0, .verify, 0, 0, 0, false, none⟩

/-- DISPATCHER_TAKE: the dispatcher sends a QGET for the next packet; or, with what = 1 plus an index, a QGET is answered, with an
entry or without one, and the next may be sent (R139, R141). -/
def execDispatcherTake (s : State) : Host.Outcome State Fault Refusal :=
  let die := s.arg.who
  if s.arg.what ≠ 0 then
    let idx := s.arg.what - 1
    match s.packet die idx with
    | none => .next s
    | some p =>
      if p.st ≠ .verify then .next s
      else if p.words = [] then
        .next ((s.modDie die fun d => { d with packets := mapErase d.packets idx }).postOnce 8 .dispatcherTake die)
      else .next ((s.post 8 .packetVerify die idx).postOnce 8 .dispatcherTake die)
  else if (s.die die).packets.any fun p => p.2.words == [] then .next s
  else
    match s.partitionToServe die, s.freePacket die with
    | some (v, prio, a), some idx =>
      let order := (s.die die).placeSeq
      let p := Packet.taken v prio order
      let s := s.modDie die fun d => { d with rrVf := v, placeSeq := order + 1, packets := mapSet d.packets idx p }
      .next (s.fresh.2.sendRequest (s.dispatcherReq die idx p 0x34 a 0))
    | _, _ => .next s

/-! Ends of a packet (R143 to R145). -/

/-- A packet leaves the table, which makes room for another. -/
def State.leaveTable (s : State) (die idx : Nat) : State :=
  (s.modDie die fun d => { d with packets := mapErase d.packets idx }).postOnce 8 .dispatcherTake die

/-- PKTDONE for the context to notify (R145). -/
def State.notifyPacket (s : State) (p : Packet) (outcome : Nat) : State :=
  let dest := bits (p.w 15) 31 0
  if dest = 0xFFFFFFFF then s
  else s.postMessage 1 dest 2 (word (0x50 + 2 ^ 32 * bits (p.w 13) 63 32)) 0xFFFFFFFF p.qseq (word outcome)

/-- A packet is rejected with a code: its notice, and its record in the rejection log (R143, R383). -/
def State.reject (s : State) (die idx : Nat) (p : Packet) (code : Nat) : State :=
  let s := s.notifyPacket p code
  let rec_ := p.words ++ [p.qseq, word code, s.time die, 0, 0, 0, 0, 0]
  (s.modPart p.vf fun x => { x with rejLog := x.rejLog.push 1024 rec_ }).leaveTable die idx

/-- The largest steal code among a partition's RUNNING packets; a change goes to the partition's cores (R166). -/
def State.newSmax (s : State) (v : Nat) : State :=
  let ps := [0, 1].flatMap fun (d : Nat) => (s.die d).packets.filter fun p => p.2.vf == v && decide (p.2.st = .running)
  let m := (ps.map fun p => bits (p.2.w 5) 59 56).foldl Nat.max 0
  if (mapGet (s.die 0).smax v).getD 0 = m then s
  else
    let s := (s.modDie 0 fun d => { d with smax := mapSet d.smax v m }).modDie 1 fun d => { d with smax := mapSet d.smax v m }
    (s.part v).coreList.foldl (fun s k => s.kick k) s

/-! Verification (R79, R80, R142). -/

/-- The n bytes at an address, which the dispatcher may read: usable pages with R, as the home slices have them (R72). -/
def State.dispatcherRead (s : State) (a : Word) (n : Nat) : Option Nat :=
  let ok := fun x : Word => bits x 63 46 == Config.moduleNumber && s.pageGrants (homeDie x) (s.entryOf (homeDie x) (bits x 44 0)) 1
  if ok a && ok (a + word (n - 1)) then
    some (natOfBytes ((List.range n).map fun i => memGet s.mem (s.placeOf (a + word i))))
  else none

/-- A range of a working set. -/
structure WsRange where
  base : Word
  len  : Nat
  need : Rights
  deriving DecidableEq, Repr

/-- The ranges of a working-set list, if its form holds. DEDUCED, notes/assumptions/39.md. -/
def State.workingSet (s : State) (a : Word) : Option (List WsRange) :=
  match s.dispatcherRead a 8 with
  | none => none
  | some h =>
    if h = 0 ∨ 1024 < h then none
    else
      ((List.range h).mapM fun i =>
        match s.dispatcherRead (a + word (8 + 16 * i)) 16 with
        | none => none
        | some e =>
          let e0 := word e
          let e1 := word (e / 2 ^ 64)
          if bits e0 63 56 ≠ 0 ∨ bits e1 39 0 = 0 ∨ bits e1 63 44 ≠ 0 then none else some ⟨e0, bits e1 39 0, bits e1 43 40⟩)

/-- The first addresses of the pages that a range touches. -/
def WsRange.pages (r : WsRange) : List Word :=
  let p := r.base.toNat / 2 ^ 25
  (List.range ((r.base.toNat + r.len - 1) / 2 ^ 25 + 1 - p)).map fun i => word ((p + i) * 2 ^ 25)

/-- The table entry of a page's first address; none outside this module. -/
def State.entryAt (s : State) (x : Word) : Option Word :=
  if bits x 63 46 = Config.moduleNumber then some (s.pageEntry (homeDie x) (bits x 44 0 / 2 ^ 25)) else none

/-- An address lies in a range. -/
def WsRange.has (r : WsRange) (a : Word) : Bool := decide (r.base.toNat ≤ a.toNat) && decide (a.toNat < r.base.toNat + r.len)

/-- FIELD (R142). -/
def Packet.badField (p : Packet) : Bool :=
  let tf := bits (p.w 5) 31 0
  bits (p.w 0) 63 61 != 0 || bits (p.w 6) 63 57 != 0 || bits (p.w 13) 31 16 != 0 || bits (p.w 15) 63 32 != 0
    || [8, 10, 14].any (fun (k : Nat) => bits (p.w k) 63 57 != 0)
    || p.count == 0 || decide (4096 < p.count) || decide (5 ≤ p.place)
    || tf / 2 ^ 15 != 0 || [0, 4, 8].any (fun (k : Nat) => decide (14 ≤ tf / 2 ^ k % 16))
    || (p.place == 4 && !p.twin) || (p.twin && decide (2048 < p.count))
    || decide (10 < bits (p.w 5) 59 56) || bits (p.w 5) 63 60 != 0

/-- PLACE (R142). -/
def State.badPlace (s : State) (p : Packet) : Bool :=
  let q := s.part p.vf
  let x := (p.w 7).toNat
  let cores := q.coreList
  (if p.place = 1 then decide (q.clusterList.length ≤ x)
   else if p.place = 2 ∨ p.place = 3 then decide (cores.length ≤ x) else x != 0)
    || (p.twin && !(cores.any fun k => k % 2 == 0 && (s.core k).present && (s.core (k + 1)).present))

/-- COUNTER (R142): a counter address that names no counter whose sector lies in a range needing O. -/
def State.badCounter (s : State) (ws : List WsRange) (a : Word) : Bool :=
  a != 0 && !(bits a 63 46 == Config.moduleNumber && a.toNat % 64 == 0 && s.tag (s.sectorOf a) == 1
    && ws.any fun r => r.has a && r.has (a + 63) && r.need / 8 % 2 == 1)

/-- The first failure of VERIFY; 0 when every check passes (R142). -/
def State.verifyCode (s : State) (p : Packet) : Nat :=
  if p.badField then 1
  else if s.badPlace p then 2
  else if !(s.part p.vf).hasDomain (bits (p.w 13) 15 0) then 3
  else
    match s.workingSet (word (bits (p.w 14) 56 0)) with
    | none => 4
    | some ws =>
      let pages := ws.flatMap fun r => r.pages.map fun x => (x, r.need)
      let entry := word (bits (p.w 0) 56 0)
      if pages.any fun x => match s.entryAt x.1 with | none => true | some e => !s.entryUsable (homeDie x.1) e || bits e 7 7 == 0 then 5
      else if pages.any (fun x => match s.entryAt x.1 with | none => true | some e => !Rights.cover (entryRights e) x.2)
          || !(ws.any fun r => r.has entry && r.need / 4 % 2 == 1) then 6
      else if s.badCounter ws p.depctr || s.badCounter ws p.donectr then 7
      else 0

/-- TIMED or PLACING (R141). -/
def State.toTimed (s : State) (die idx : Nat) (p : Packet) : State :=
  let nb := p.w 12
  if nb = 0 ∨ s.passed die nb then (s.modPacket die idx fun q => { q with st := .placing }).postOnce 0 .placeContext die
  else
    let s := s.modPacket die idx fun q => { q with st := .timed }
    if (s.die die).timeSet then s.postSoon (s.cyclesUntil die nb) .notbeforeReached die idx else s

/-- The dispatcher's CWAIT on a packet's dependence counter (R141). -/
def State.askDepctr (s : State) (die idx : Nat) (p : Packet) : State :=
  s.fresh.2.sendRequest (s.dispatcherReq die idx p 0x2C p.depctr (p.w 9))

/-- The lines of n bytes at an address of this module. -/
def linesOf (a : Word) (n : Nat) : List Word :=
  if bits a 63 46 ≠ Config.moduleNumber then []
  else (List.range (n / 256 + 1)).map (fun i => a + word (256 * i)) ++ [a + word (n - 1)]

/-- The pages of a packet's working-set list are looked up at their home slices: its first word's, and then the rest (R72, R73). -/
def State.listLookUp (s : State) (p : Packet) : Bool × State :=
  let a := word (bits (p.w 14) 56 0)
  let r := s.lookUp (linesOf a 8)
  if !r.1 then r
  else
    match r.2.dispatcherRead a 8 with
    | none => r
    | some h => if h = 0 ∨ 1024 < h then r else r.2.lookUp (linesOf a (8 + 16 * h))

/-- PACKET_VERIFY: the checks of R142, in order, once the list of the working set can be read; until then it is looked for again
(notes/assumptions/60.md). -/
def execPacketVerify (s : State) : Host.Outcome State Fault Refusal :=
  let die := s.arg.who
  let idx := s.arg.what
  match s.packet die idx with
  | none => .next s
  | some p =>
    let look := s.listLookUp p
    if p.st ≠ .verify ∨ p.words = [] then .next s
    else if !look.1 then .next (look.2.post 16 .packetVerify die idx)
    else
      let s := look.2
      let code := s.verifyCode p
      if code ≠ 0 then .next (s.reject die idx p code)
      else if p.depctr = 0 then .next (s.toTimed die idx p)
      else .next ((s.modPacket die idx fun q => { q with st := .depend }).askDepctr die idx p)

/-- DEPCTR_GRANT: the CWAIT is granted, or refused with another cause than OBJ_WAITFULL (R141). -/
def execDepctrGrant (s : State) : Host.Outcome State Fault Refusal :=
  let die := s.arg.who
  let idx := s.arg.what
  match s.packet die idx with
  | none => .next s
  | some p =>
    if p.st ≠ .depend then .next s
    else if s.arg.val ≠ 0 then .next (s.reject die idx p 7)
    else .next (s.toTimed die idx p)

/-- DEPCTR_RETRY: a CWAIT refused for want of room is made again (R101). -/
def execDepctrRetry (s : State) : Host.Outcome State Fault Refusal :=
  let die := s.arg.who
  let idx := s.arg.what
  match s.packet die idx with
  | none => .next s
  | some p => if p.st = .depend then .next (s.askDepctr die idx p) else .next s

/-- NOTBEFORE_REACHED: the timebase has reached notbefore (R141); after a change of the clock it is waited for anew. -/
def execNotbeforeReached (s : State) : Host.Outcome State Fault Refusal :=
  let die := s.arg.who
  let idx := s.arg.what
  match s.packet die idx with
  | none => .next s
  | some p => if p.st = .timed then .next (s.toTimed die idx p) else .next s

/-! Placement (R153 to R155). -/

/-- A core may be placed on at all: present, not of a halted cluster, with a free context number. -/
def State.placeable (s : State) (core : Nat) : Bool :=
  (s.core core).present && !(s.cluster (clusterOf core)).halted && (s.freeNum core).isSome

/-- The free slots that count at a core, or, of a pair, at both its cores. -/
def State.slotsFor (s : State) (twin : Bool) (core : Nat) : List Nat :=
  if twin then s.pairSlots core else (s.core core).freeSlots

/-- A core, or the pair that it leads, is eligible. -/
def State.eligible (s : State) (twin : Bool) (core : Nat) : Bool :=
  s.placeable core && (!twin || s.placeable (core + 1))
    && (s.slotsFor twin core != [] || s.queueRoom core && (!twin || s.pairRoom core))

/-- The first of a list with the greatest value. -/
def firstBest (f : Nat → Nat) : List Nat → Option Nat
  | [] => none
  | x :: xs => some (xs.foldl (fun b y => if f b < f y then y else b) x)

/-- The next core from a place of a list on, wrapping, with a property: an absent core's replacement. -/
def nextFrom (ok : Nat → Bool) (l : List Nat) (i : Nat) : List Nat :=
  (((l.drop i ++ l.take i).find? ok).map fun k => [k]).getD []

/-- The cores among which the next context of a packet is placed; of a pair, its leading cores. -/
def State.targets (s : State) (p : Packet) : List Nat :=
  let q := s.part p.vf
  let x := (p.w 7).toNat
  let all := if p.place = 1 then (q.clusterList[x]?.map fun c => (List.range 8).map fun k => 8 * c + k).getD [] else q.coreList
  if p.twin then
    let leads := all.filter fun k => k % 2 == 0
    let there := fun k => (s.core k).present && (s.core (k + 1)).present
    if p.place = 2 then nextFrom there leads (x / 2)
    else if p.place = 3 then nextFrom there leads ((x / 2 + p.placed) % Nat.max 1 leads.length)
    else leads.filter there
  else
    let there := fun k => (s.core k).present
    if p.place = 2 then nextFrom there all x
    else if p.place = 3 then nextFrom there all ((x + p.placed) % Nat.max 1 all.length)
    else all.filter there

/-- The core chosen for the next context: of the eligible ones the one with the most free slots, else with the shortest ready
queue; the lowest of several (R153, R155). A packet of a partition that is swapped out waits for its return (R380). -/
def State.chooseCore (s : State) (p : Packet) : Option Nat :=
  let cs := (s.targets p).filter fun k => s.partOfCore k == some p.vf && s.eligible p.twin k
  let free := cs.filter fun k => s.slotsFor p.twin k != []
  if free ≠ [] then firstBest (fun k => (s.slotsFor p.twin k).length) free
  else firstBest (fun k => 256 - (s.core k).ready.length) cs

/-- The next context of a packet (R149). -/
def Packet.context (p : Packet) (die idx : Nat) : Ctx :=
  { Ctx.initial with
    s := (((((Ctx.initial.s.set 3 (word p.placed)).set 4 (p.w 1)).set 5 (p.w 2)).set 6 (p.w 3)).set 7 (p.w 4))
    pc := word (bits (p.w 0) 56 0)
    tfmt := (p.w 5).setWidth 32
    tscale := (p.w 6).setWidth 57
    domain := (p.w 13).setWidth 16
    prio := BitVec.ofNat 2 (bits (p.w 0) 60 59)
    pre := bits (p.w 0) 58 58 == 1
    packet := some (4096 * die + idx)
    twinned := p.twin }

/-- One context of a packet placed, if it can be. -/
def State.placeOne (s : State) (die idx : Nat) (p : Packet) : Option State :=
  match s.chooseCore p with
  | none => none
  | some core =>
    match s.create core (p.context die idx) with
    | none => none
    | some (_, t) =>
      let t := t.modPacket die idx fun q => { q with placed := q.placed + 1 }
      if p.placed + 1 = p.count then
        some (((t.modPacket die idx fun q => { q with st := .running }).newSmax p.vf).checkPacket (4096 * die + idx))
      else some t

/-- Before another: higher priority, which is the packet's own w0[60:59] and not its queue's, then earlier QGET (R141).
DESIGN CHOICE, notes/assumptions/64.md. -/
def Packet.before (a b : Packet) : Bool :=
  decide (bits (b.w 0) 60 59 < bits (a.w 0) 60 59) || (bits (a.w 0) 60 59 == bits (b.w 0) 60 59 && decide (a.order ≤ b.order))

/-- A packet put into a list in order. -/
def insertPacket (x : Nat × Packet) : List (Nat × Packet) → List (Nat × Packet)
  | [] => [x]
  | y :: ys => if x.2.before y.2 then x :: y :: ys else y :: insertPacket x ys

/-- Packets in the order in which they place. -/
def sortPackets (ps : List (Nat × Packet)) : List (Nat × Packet) := ps.foldr insertPacket []

/-- The core chosen for a packet's next context takes another new context in this cycle (R157). -/
def State.mustQueue (s : State) (p : Packet) : Bool := (s.chooseCore p).any fun k => !s.mayCreate k p.twin

/-- PLACE_CONTEXT: the dispatcher places one context, of the first packet in PLACING whose next context can be placed; one every
8 cycles at most (R141, R155, R157). A core that takes another context in this cycle takes it in the next. -/
def execPlaceContext (s : State) : Host.Outcome State Fault Refusal :=
  let die := s.arg.who
  let d := s.die die
  if s.cycle < d.lastPlace then .next (s.postOnce (d.lastPlace - s.cycle) .placeContext die)
  else
    let ps := sortPackets (d.packets.filter fun p => decide (p.2.st = .placing))
    if (ps.find? fun p => (s.chooseCore p.2).isSome).any fun p => s.mustQueue p.2 then .next (s.postOnce 1 .placeContext die)
    else
    match ps.findSome? fun p => s.placeOne die p.1 p.2 with
    | none => .next s
    | some t => .next ((t.modDie die fun x => { x with lastPlace := s.cycle + 8 }).postOnce 8 .placeContext die)

/-! Completion (R144). -/

/-- The last steps of a completed packet. -/
def State.donePacket (s : State) (die idx : Nat) (p : Packet) (outcome : Nat) : State :=
  ((s.notifyPacket p outcome).leaveTable die idx).newSmax p.vf

/-- The outcome of a packet whose add or join was refused (R145, R169). -/
def refusedOutcome (cause : Nat) : Nat := 0x200 + 2 ^ 16 * cause

/-- PACKET_COMPLETE: the last context is Free: the completion add leaves; with val = 1 plus a cause it is answered (R144). -/
def execPacketComplete (s : State) : Host.Outcome State Fault Refusal :=
  let die := s.arg.who
  let idx := s.arg.what
  match s.packet die idx with
  | none => .next s
  | some p =>
    let own := p.refused.elim 0 refusedOutcome
    if s.arg.val = 0 then
      if p.st ≠ .running ∨ p.live ≠ 0 ∨ p.records ≠ 0 then .next s
      else if p.killed then .next (s.donePacket die idx p 0x100)
      else if p.donectr = 0 then .next (s.donePacket die idx p own)
      else
        let s := (s.modPacket die idx fun q => { q with st := .complete }).newSmax p.vf
        .next (s.fresh.2.sendRequest (s.dispatcherReq die idx p 0x2B p.donectr (p.w 11)))
    else if p.st ≠ .complete then .next s
    else if own = 0 ∧ s.arg.val ≠ 1 then .next (s.donePacket die idx p (refusedOutcome (s.arg.val - 1)))
    else .next (s.donePacket die idx p own)

/-! PURGE (R442). -/

/-- A CWAIT of a dispatcher for a packet. -/
def isDepWait (die idx : Nat) (r : ObjReq) : Bool := r.ctxid == 0xFFFFFFF0 + die && r.packet == idx && r.op == 0x2C

/-- The dispatcher's CWAIT for a packet is withdrawn: from its wait list, or before it reached it (R141). -/
def State.withdrawDep (s : State) (die idx : Nat) : State :=
  let s := s.removeWaits fun e => isDepWait die idx e.req
  let s := { s with net := s.net.filter fun m => match m.body with | .request r => !isDepWait die idx r | _ => true }
  s.slices.foldl (fun s x =>
    if x.2.objQ.any fun r => isDepWait die idx r then
      s.modSlice x.1 fun y => { y with objQ := y.objQ.filter fun r => !isDepWait die idx r }
    else s) s

/-- PURGE: every packet of the partition still in VERIFY, DEPEND or TIMED is rejected with outcome 8; the dispatcher's CWAITs leave
their wait lists (R141). -/
def execPurge (s : State) : Host.Outcome State Fault Refusal :=
  let v := s.arg.val % 128
  .next ([0, 1].foldl (fun (s : State) (die : Nat) =>
    let ps := (s.die die).packets.filter fun p =>
      p.2.vf == v && p.2.words != [] && decide (p.2.st = .verify ∨ p.2.st = .depend ∨ p.2.st = .timed)
    ps.foldl (fun s p =>
      let s := if p.2.st = .depend then s.withdrawDep die p.1 else s
      s.reject die p.1 p.2 8) s) s)

end Sys2Proof.Machine
end

