-- ==== Sys2Proof/Machine/Repair.lean ====
section
/-!
DEFINITION. Twin pairs at the comparator, register repair, errors of storage and hops, and the rail: TWIN_COMPARE,
TWIN_RESTORE_DONE, CHECKPOINT_COMPARE, REGISTER_REPAIR, REPLAY_DONE, ARRAY_ERROR, VOLTAGE_LOWER and NOUV_WRITE
(spec/21_reliability_and_leases.md R409 to R418, R430 to R432).
-/
namespace Sys2Proof.Machine

/-! Rollback (R415). -/

/-- An image put back (R413, R415). What was reported since stays beside it: recorded causes, flags and touched targets, since the
accesses that they belong to do not come again. DEDUCED, notes/assumptions/20.md. -/
def Ctx.restore (c : Ctx) (k : Checkpoint) : Ctx :=
  let w := fun (i : Nat) => k.ctl.getD i 0
  let f := fun (i : Nat) => (w 13).getLsbD i
  let c := k.recs.foldl (fun c r => c.record r) c
  { c with
    wake := c.wake || f 6, eerr := c.eerr || f 7, touch := c.touch ||| k.touch, wcount := k.wcount
    s := k.s, v := k.v, m := k.m, pc := k.pc
    tfmt := (w 0).setWidth 32, tscale := (w 1).setWidth 57, gtol := (w 2).setWidth 32, trappc := (w 3).setWidth 57
    tcause := (w 4).setWidth 11, tval := w 5, tvecU := (w 6).setWidth 57, tvecS := (w 7).setWidth 57, tdeleg := (w 8).setWidth 32
    tsave := #v[w 9, w 10, w 11, w 12]
    prv := f 0, uh := f 1, sh := f 2, pprv := f 3, puh := f 4, pre := f 5
    domain := (w 14).setWidth 16, prio := (w 15).setWidth 2, tquant := (w 16).setWidth 16, wlimit := (w 17).setWidth 32 }

/-- A context of a pair parks for the restore; what its bundle had under way is given up. -/
def State.stopForRestore (s : State) (g : Nat) : State :=
  let s := s.dropHeld g
  let c := s.ctx g
  let s := (s.setCtx g
    { c with
      latch := none, fills := [], pend := [], heldTail := none, held := none, transfer := none, trap := none, marker := false
      resuming := false, answer := none, vectoring := false, phase := 0, undo := none, ufetch := [], nofetch := [], leaves := false
      twin := c.twin.map fun t => { t with holding := false, released := false } }).unpost .parkResume g
  (s.retryIssue (s.at g)).park g .restore

/-- Both contexts of a pair restore their checkpoints in 3 turns, 48 cycles (R415). -/
def State.rollback (s : State) (lead : Nat) : State :=
  match (s.ctx lead).twin with
  | none => s
  | some t =>
    let up := fun (c : Ctx) => { c with rbk := c.rbk + 1 }
    let s := ((s.stopForRestore lead).modCtx lead up).stopForRestore t.partner |>.modCtx t.partner up
    s.post 48 .twinRestoreDone lead

/-- The number of the bundle that the trailer has in hand, at which a mismatch was found. -/
def State.mismatchAt (s : State) (lead : Nat) : Nat :=
  match (s.ctx lead).twin with
  | none => 0
  | some t => ((s.ctx t.partner).twin.map (·.issued)).getD 0

/-- TWIN_ROLLBACK: a first mismatch rolls back; a second one at the same bundle n kills the pair with TWIN_MISMATCH at its turn (R365,
R415). TVAL of TWIN_MISMATCH is not stated: a free value. DESIGN CHOICE, notes/assumptions/19.md. -/
def State.pairMismatch (s : State) (lead n : Nat) : State :=
  match (s.ctx lead).twin with
  | none => s
  | some t =>
    if t.mismatches.contains n then
      let v := (s.scorePair (s.at lead) 8192).freeNat
      (v.2.sendFatal lead Cause.twinMismatch (word v.1) 0xFFFFFFFF).sendFatal t.partner Cause.twinMismatch (word v.1) 0xFFFFFFFF
    else (s.modCtx lead fun c => c.modTwin fun t => { t with mismatches := n :: t.mismatches }).rollback lead

/-- A pair's point passed: what was consumed is freed, and a mismatch that came before is resolved (R414, R415). -/
def State.passedPoint (s : State) (lead : Nat) : State :=
  match (s.ctx lead).twin with
  | none => s
  | some t =>
    let s := s.modCtx lead fun c => c.modTwin fun t => { t with queue := t.queue.drop t.taken, taken := 0, mismatches := [] }
    if t.mismatches = [] then s else s.scorePair (s.at lead) (512 * t.mismatches.length)

/-- The trailer's compare point matched: it goes on to take the outcome. -/
def State.releaseTrailer (s : State) (g : Nat) : State :=
  (s.modCtx g fun c => c.modTwin fun t => { t with released := true, holding := false }).awaken g

/-- A compare point matched: its action takes place now, and both cores take new checkpoints, the leader's as it stood after the bundle
(R306, R414). -/
def State.releaseHeld (s : State) (lead partner : Nat) (h : HeldPoint) : State :=
  let s := (s.passedPoint lead).modCtx lead fun c => c.modTwin fun t =>
    let t := { t with points := t.points.filter fun x => x.bundle != h.bundle }
    match h.image with
    | some (k, n) => { t with checkpoint := k, base := n }
    | none => { t with snapDue := true }
  let s := if (s.ctx partner).twin.any (·.holding) then s.releaseTrailer partner
    else s.modCtx partner fun c => c.modTwin fun t => { t with snapDue := true }
  match h.acc with
  | some id => s.launchHeld id
  | none => s.firePoint lead

/-- TWIN_COMPARE: the comparator judges the compare point with the bundle number val − 1; or (what = 1) a load's addresses, or bundles,
differ (R414). -/
def execTwinCompare (s : State) : Host.Outcome State Fault Refusal :=
  let lead := s.arg.who
  match (s.ctx lead).twin with
  | none => .next s
  | some l =>
    match (s.ctx l.partner).twin with
    | none => .next s
    | some t =>
      if (s.ctx lead).kill.isSome ∨ !l.leader then .next s
      else if s.arg.what ≠ 0 then .next (s.pairMismatch lead (s.mismatchAt lead))
      else
        match l.points.find? fun h => h.bundle + 1 == s.arg.val with
        | none => .next s
        | some h =>
          if some h.bun = t.heldBun ∧ h.sig = t.sig then .next (s.releaseHeld lead l.partner h)
          else .next (s.pairMismatch lead h.bundle)

/-- TWIN_RESTORE_DONE: both contexts stand at their checkpoints, and the pair replays with the retained values (R415). -/
def execTwinRestoreDone (s : State) : Host.Outcome State Fault Refusal :=
  let lead := s.arg.who
  match (s.ctx lead).twin with
  | none => .next s
  | some l =>
    if (s.ctx lead).wait ≠ .restore ∨ (s.ctx l.partner).wait ≠ .restore then .next s
    else
      let back := fun (c : Ctx) =>
        match c.twin with
        | none => c
        | some t =>
          { c.restore t.checkpoint with
            latch := none, fills := [], replay := c.replay.filter fun r => decide (r.no < t.base)
            twin := some { t with issued := t.base, taken := 0, replaying := if t.leader then t.queue.length else 0, snapDue := false } }
      .next ((((s.modCtx lead back).modCtx l.partner back).awaken lead).awaken l.partner)

/-- What the two images of a pair have in common: TOUCH, COUNT and the wake flag are those of the context that made the accesses, the
waits and the matches. DEDUCED, notes/assumptions/20.md. -/
def Checkpoint.shared (k : Checkpoint) : Checkpoint :=
  { k with touch := 0, wcount := 0, ctl := k.ctl.modify 13 fun w => w &&& ~~~64 }

/-- CHECKPOINT_COMPARE: the queue is full and the trailer has consumed all of it: the two images are compared (R414). -/
def execCheckpointCompare (s : State) : Host.Outcome State Fault Refusal :=
  let lead := s.arg.who
  match (s.ctx lead).twin with
  | none => .next s
  | some l =>
    match (s.ctx l.partner).twin with
    | none => .next s
    | some t =>
      if (s.ctx lead).wait ≠ .issue ∨ !l.leader then .next s
      else if l.taken ≠ l.queue.length ∨ t.issued ≠ l.issued ∨ (s.ctx l.partner).pend ≠ [] ∨ l.points ≠ [] then
        .next (s.post 16 .checkpointCompare lead)
      else
        let a := (s.ctx lead).settled.snapshot
        let b := (s.ctx l.partner).settled.snapshot
        if a.shared = b.shared then
          let s := s.passedPoint lead
          let take := fun (k : Checkpoint) (c : Ctx) => c.modTwin fun t => { t with checkpoint := k, base := t.issued, snapDue := false }
          .next (((s.modCtx lead (take a)).modCtx l.partner (take b)).awaken lead)
        else .next (s.pairMismatch lead (s.mismatchAt lead))

/-! Errors counted (R409, R430 to R432). -/

/-- The die whose rail a resource lies on. -/
def dieOfKey (key : Nat) : Nat := if key < 2000 then key / 576 else if key < 3000 then (key - 2000) / Config.slices else 0

/-- The slice that a channel's resource key names counts an error, as the census shows (R86, R409, R444). -/
def State.countSlice (s : State) (key : Nat) (f : Slice → Slice) : State :=
  if 2000 ≤ key ∧ key < 3000 then s.modSlice (key - 2000) f else s

/-- VOLTAGE_RAISE: the rail goes up by 10 mV after a corrected error, never above nominal (R432). -/
def State.raiseRail (s : State) (die : Nat) : State :=
  s.modDie die fun d => { d with rail := d.rail - 2, hourErrs := d.hourErrs + 1 }

/-- A resource has reached the threshold of a predicted failure: its score is raised, and its lease is due at once (R431). -/
def State.predict (s : State) (key : Nat) : State :=
  let t := (s.addScore key (16384 - s.score key)).postOnce 0 .leaseStart key
  { t with assay := { t.assay with predicted := if t.assay.predicted.contains key then t.assay.predicted else key :: t.assay.predicted } }

/-- A corrected error on a die's rail, of an array that counts against some resources: the rail goes up; at nominal voltage the error
adds to each resource's score, and the array's 16th within an hour predicts their failure; below nominal it counts against the margin
alone (R430 to R432). -/
def State.corrected (s : State) (die : Nat) (keys : List Nat) (array weight : Nat) : State :=
  let t := (keys.foldl (fun s key => s.countSlice key fun x => { x with corrected := x.corrected + 1 }) s).raiseRail die
  if (s.die die).rail ≠ 0 ∨ keys = [] then t
  else
    let n := (mapGet s.assay.hourErrs array).getD 0 + 1
    let t := { t with assay := { t.assay with hourErrs := mapSet t.assay.hourErrs array n } }
    keys.foldl (fun t key => if n < 16 then t.addScore key weight else (t.addScore key weight).predict key) t

/-- The number of a kind of array. -/
def arrayKindNo : ArrayKind → Nat
  | .register => 0
  | .control => 1
  | .accumulator => 2
  | .localBank => 3
  | .l1 => 4
  | .queue => 5
  | .shadow => 6
  | .l2data => 7
  | .l2tag => 8
  | .object => 9
  | .rdc => 10
  | .hbm => 11
  | .flit => 12
  | .adder => 13
  | .bridge => 14
  | .objproc => 15
  | .bankUnit => 16

/-- A number for the array of a kind that a resource has: the shadow storage is one array of the eight cores of a cluster, named by its
first. -/
def arrayNo (k : ArrayKind) (keys : List Nat) : Nat := 32 * keys.headD 0 + arrayKindNo k

/-- A corrected parity error of a core's registers (R412, R416, R430). -/
def State.correctedRegister (s : State) (core : Nat) : State :=
  s.corrected (dieOfCore core) [s.coreKey core] (arrayNo .register [s.coreKey core]) 4

/-- An uncorrectable error counts at any voltage (R430). -/
def State.uncorrected (s : State) (key : Nat) : State :=
  (s.countSlice key fun x => { x with uncorrected := x.uncorrected + 1 }).addScore key 2048

/-! Register repair (R412). -/

/-- REPLAY_DONE: the producer has been executed again from its captured inputs; the reading bundle may issue. -/
def execReplayDone (s : State) : Host.Outcome State Fault Refusal :=
  let g := s.arg.who
  let c := s.ctx g
  if c.wait ≠ .restore ∨ c.st ≠ .parked then .next s
  else
    let ws := ((c.replay.find? fun e => e.dests.any fun r => r.code == s.arg.what).map fun e =>
      e.writes.filter fun w => w.reg.code == s.arg.what).getD []
    .next ((s.setCtx g (c.setRegs ws)).awaken g)

/-- REGISTER_REPAIR: the parity of a register of a context fails as it is read: replay, a pair's rollback, or the kill (R412, R416). -/
def execRegisterRepair (s : State) : Host.Outcome State Fault Refusal :=
  let g := s.arg.who
  let c := s.ctx g
  if c.st = .free ∨ c.kill.isSome then .next s
  else if c.replay.any fun e => e.dests.any fun r => r.code == s.arg.what then
    let s := s.correctedRegister (s.at g)
    if c.st = .running then
      let t := (s.park g .restore).freeRange 1 48
      .next (t.2.post t.1 .replayDone g s.arg.what)
    else .next s
  else
    match c.twin with
    | some t => .next ((s.correctedRegister (s.at g)).rollback (if t.leader then g else t.partner))
    | none => .next ((s.uncorrected (s.coreKey (s.at g))).sendFatal g Cause.parityKill (word s.arg.what) 0xFFFFFFFF)

/-! ARRAY_ERROR (R409). -/

/-- A place's sector is poisoned (R411). -/
def State.poisonPlace (s : State) (place : Nat) : State :=
  if s.poison.contains (place / 64) then s else { s with poison := place / 64 :: s.poison }

/-- A packet is counted as killed (R409). -/
def State.killPacket (s : State) (p : Option Nat) : State :=
  match p with
  | none => s
  | some p => s.modPacket (p / 4096) (p % 4096) fun q => { q with killed := true }

/-- An uncorrectable error of a queue of a core: of an image, an inbox or a ready entry of context `what`; or a task record (1), a
matrix command (2) or a copy command (3) is dropped, and its packet counts as killed. -/
def State.queueError (s : State) (core what kind : Nat) : State :=
  match kind with
  | 0 => s.parityKill what
  | 1 =>
    match (s.core core).deque[what]? with
    | none => s
    | some t =>
      let s := s.modCore core fun k => { k with deque := k.deque.eraseIdx what }
      let s := s.modPacket (t.packet / 4096) (t.packet % 4096) fun p => { p with records := p.records - 1, killed := true }
      s.checkPacket t.packet
  | 2 =>
    match (s.core core).mx.queue[what]? with
    | none => s
    | some c =>
      (((s.modCore core fun k => { k with mx := { k.mx with queue := k.mx.queue.eraseIdx what } }).grantMatrix core).killPacket
        (s.ctx c.gid).packet).lookDrain c.gid
  | _ =>
    match (s.cluster (clusterOf core)).cpQueue[what]? with
    | none => s
    | some c =>
      if (s.cluster (clusterOf core)).busyFor c then s
      else
        (((s.modCluster (clusterOf core) fun x => { x with cpQueue := x.cpQueue.eraseIdx what }).grantCopy (clusterOf core)).killPacket
          (s.ctx c.gid).packet).lookDrain c.gid

/-- An L2 tag or translation entry fails: the line is dropped and fetched again if clean, its dirty sectors poisoned otherwise. -/
def State.tagError (s : State) (sl line : Nat) : State :=
  let die := sl / Config.slices
  let dirty := ((s.slice sl).l2.find? fun l => l.line == line).elim (0 : BitVec 4) fun l => l.dirty
  let s := (List.range 4).foldl (fun s i =>
    if dirty.getLsbD i then s.poisonPlace (s.globalPlace die (256 * line + 64 * i)) else s) s
  s.modSlice sl fun x => { x with l2 := x.l2.filter fun l => l.line != line, tlb := x.tlb.filter fun t => t.1 != line / 2 ^ 17 }

/-- The object processor's two results differ twice: the object becomes FAULTED, and the request in hand and every waiter are refused
(R86). -/
def State.processorFails (s : State) (a : Word) : State :=
  let sl := homeSlice a
  match (s.slice sl).objQ.find? fun r => r.op != 0 && waitKey r.addr == waitKey a with
  | none => s.faultObject a 0
  | some r =>
    let s := s.modSlice sl fun x => { x with objQ := x.objQ.erase r }
    (s.reply 2 r 3 a Cause.objType).faultObject a 2

/-- The two results of a row of a pair's bank command differ: the command stops at the row, ENGINE_ERROR is recorded with the bank unit
as its source, and the score of the bank's core grows (R190, R289, R418). -/
def State.rowDisagrees (s : State) (core bank : Nat) : State :=
  match ((s.core core).bank bank).cmdQ with
  | [] => s
  | c :: _ =>
    match s.acc c.acc with
    | none => s
    | some a =>
      if (s.ctx a.gid).twin.isNone then s
      else
        let s := s.recordBoth a.gid ⟨BitVec.ofNat 8 Cause.engineError, engineTval 0 Cause.twinMismatch 2, 0, 0⟩
        (s.addScore (s.coreKey core) 512).endCommand core bank c none

/-- The effect of an uncorrectable error of an array: who is the context, core, cluster, slice or die, what the item. -/
def State.arrayFails (s : State) (k : ArrayKind) (who what val : Nat) : State :=
  match k with
  | .register => s.sendFatal who Cause.parityKill (word what) 0xFFFFFFFF
  | .control => s.parityKill who
  | .accumulator => { s with poison := (2 ^ 58 + who * 16384 + what) :: s.poison }
  | .localBank => s.poisonPlace (slabPlace who what)
  | .l1 => (s.modCore who fun c => { c with l1d := c.l1d.filter fun x => x.addr != what, l1i := c.l1i.filter fun x => x.addr != what })
  | .queue => s.queueError who what val
  | .shadow => s.poisonPlace what
  | .l2data => s.poisonPlace what
  | .l2tag => s.tagError who what
  | .object => (s.faultObject (word what) 0)
  | .objproc => s.processorFails (word what)
  | .rdc => s.modDie who fun d => { d with rdc := d.rdc.filter fun x => x.addr / 256 != what / 256 }
  | .hbm => s.poisonPlace what
  | .flit | .bridge => s
  | .adder => s
  | .bankUnit => s.rowDisagrees who what

/-- The resources that an array's errors count against (R409). -/
def State.arrayKeys (s : State) (k : ArrayKind) (who : Nat) : List Nat :=
  match k with
  | .register | .control => [s.coreKey (s.at who)]
  | .accumulator | .localBank | .l1 | .queue => [s.coreKey who]
  | .shadow => (List.range 8).map fun i => s.coreKey (8 * who + i)
  | .l2data | .l2tag | .object | .objproc | .hbm => [channelKey who]
  | .rdc | .flit | .bridge | .adder | .bankUnit => []

/-- The die on which an array lies. -/
def State.arrayDie (s : State) (k : ArrayKind) (who : Nat) : Nat :=
  match k with
  | .register | .control => dieOfCore (s.at who)
  | .accumulator | .localBank | .l1 | .queue => dieOfCore who
  | .shadow => who / 64
  | .l2data | .l2tag | .object | .objproc | .hbm => who / Config.slices
  | .bankUnit => dieOfCore who
  | .rdc | .flit | .bridge | .adder => who

/-- What a corrected error does besides being counted: a sector of L1 is dropped, to be fetched again; a combining entry is dissolved; a
flit of the bridge is sent again and counted against the die (R409, R430). -/
def State.arrayCorrected (s : State) (k : ArrayKind) (who what val : Nat) : State :=
  match k with
  | .l1 => s.arrayFails k who what val
  | .adder =>
    match (s.die who).switchQ.find? fun e => e.req.id == what with
    | none => s
    | some e => s.dissolve who e
  | .bridge => s.modDie who fun d => { d with netErrs := d.netErrs + 1 }
  | _ => s

/-- The check of these has no uncorrectable outcome (R409). -/
def arrayRepairs : ArrayKind → Bool
  | .l1 | .adder | .bridge => true
  | _ => false

/-- A packet fails its parity check behind a hop: the hop sends it again, and the die counts the error. A hop whose output fails 8 times
in a row is removed from use (R409); `first` says that the packet before it had passed. -/
def State.hopFails (s : State) (die hop : Nat) (first : Bool) : State :=
  s.modDie die fun d =>
    let n := (mapGet d.hops hop).getD 0
    { d with netErrs := d.netErrs + 1, hops := if n = 8 then d.hops else mapSet d.hops hop (if first then 1 else n + 1) }

/-- Both physical ports of a logical output, 2 h and 2 h + 1, are removed (R409). -/
def Die.outputLost (d : Die) (hop : Nat) : Bool :=
  mapGet d.hops (hop / 2 * 2) == some 8 && mapGet d.hops (hop / 2 * 2 + 1) == some 8

/-- What a corrected error of an array adds to its resource's score: 4 for a register, 1 for SRAM, nothing for HBM, which R430 does
not list. -/
def arrayWeight (k : ArrayKind) : Nat :=
  match k with
  | .register => 4
  | .hbm => 0
  | _ => 1

/-- ARRAY_ERROR: a check found an error. A logical output of a switch that has lost both its ports is a module failure, which the
module itself does not survive (R409, R450). DEDUCED, notes/assumptions/42.md. -/
def execArrayError (s : State) : Host.Outcome State Fault Refusal :=
  let who := s.arg.who
  let what := s.arg.what
  match s.arg.ext with
  | .array .flit _ =>
    let t := (s.hopFails who what (s.arg.val == 1)).raiseRail who
    if (t.die who).outputLost what then .fault .moduleFailure else .next t
  | .array k corrected =>
    let keys := s.arrayKeys k who
    if corrected || arrayRepairs k then
      .next ((s.arrayCorrected k who what s.arg.val).corrected (s.arrayDie k who) keys (arrayNo k keys) (arrayWeight k))
    else .next (keys.foldl (fun t key => t.uncorrected key) (s.arrayFails k who what s.arg.val))
  | _ => .next s

/-! The rail (R432). -/

/-- VOLTAGE_LOWER: at a clock hour the governor looks at the hour that ended: fewer than 4 corrected errors lower the rail by 5 mV,
to no less than nominal − 60 mV; none at all make its setting the margin, if it is the lowest so far. A die whose firmware was not
started has no governor (R419, R452).
DESIGN CHOICE, notes/assumptions/41.md. -/
def execVoltageLower (s : State) : Host.Outcome State Fault Refusal :=
  let die := s.arg.who
  let d := s.die die
  let low := if d.hourErrs = 0 then Nat.max d.lowest d.rail else d.lowest
  let rail := if s.pf.nouv ∨ 4 ≤ d.hourErrs ∨ d.bootFail then d.rail else Nat.min 12 (d.rail + 1)
  let s := s.modDie die fun d => { d with rail := rail, lowest := low, uvMargin := BitVec.ofNat 8 low, hourErrs := 0 }
  let s := { s with assay := { s.assay with hourErrs := [] } }
  .next (s.post (s.cyclesOf 3600000000000) .voltageLower die)

/-- NOUV_WRITE: UVCTL is written; NOUV returns both rails to nominal, at once (R432 allows 1 ms).
DEDUCED, notes/assumptions/50.md. -/
def execNouvWrite (s : State) : Host.Outcome State Fault Refusal :=
  let on := s.arg.val % 2 == 1
  let s := { s with pf := { s.pf with nouv := on } }
  if on then .next ((s.modDie 0 fun d => { d with rail := 0 }).modDie 1 fun d => { d with rail := 0 })
  else .next s

end Sys2Proof.Machine
end

