-- ==== Sys2Proof/Machine/Links.lean ====
section
/-!
DEFINITION. Plosil Link ports and the timebase across the pod: LINK_FLIT_RECEIVE, NAK_RECEIVE, NAK_REPEAT, ACK_TIMER, LANE_FAILURE,
RETRAIN_DONE, TIME_FLIT_SEND, TIME_FLIT_RECEIVE and SYNC_LOSS (spec/16_messages_and_networks.md R355 to R359), and CAPACITY messages
(spec/21_reliability_and_leases.md R424, R427).
-/
namespace Sys2Proof.Machine

/-! CAPACITY (R424, R427). -/

/-- A listener that a message of a class (0 cores, 1 memory, 2 links) is posted to: its context is not Free and its domain lies in
the partition. -/
def State.listens (s : State) (p : Partition) (cls : Nat) (l : BitVec 35) : Bool :=
  let c := s.ctx (l.toNat % 2 ^ 32)
  l.getLsbD (32 + cls) && decide (c.st ≠ .free) && p.hasDomain c.domain.toNat

/-- A CAPACITY message of a partition: CAPGEN advances, and the listeners of the class are told. -/
def State.postCapacity (s : State) (v cls event ident old new : Nat) (deadline : Word) : State :=
  let s := s.modPart v fun p => { p with capGen := p.capGen + 1 }
  let p := s.part v
  let w0 := word (0x30 + 2 ^ 32 * p.capGen.toNat)
  let w2 := word (cls + 1 + 2 ^ 4 * event + 2 ^ 8 * ident + 2 ^ 32 * old + 2 ^ 48 * new)
  (p.listen.toList.filter fun l => s.listens p cls l).foldl (fun s l =>
    s.postMessage 1 (l.toNat % 2 ^ 32) 3 w0 0xFFFFFFFF w2 deadline) s

/-- The enabled partitions. -/
def State.enabledParts (s : State) : List Nat := (s.parts.filter fun p => p.2.enable).map (·.1)

/-- A link event is told to every partition's bandwidth listeners (R427, R429). -/
def State.linkCapacity (s : State) (event port old new : Nat) : State :=
  s.enabledParts.foldl (fun s v => s.postCapacity v 2 event port old new 0) s

/-! Widths (R357). -/

/-- All lanes of a group are good. -/
def goodGroup (good : BitVec 8) (lo n : Nat) : Bool := (List.range n).all fun i => good.getLsbD (lo + i)

/-- The widest width that the good lanes allow; 0 when no lane is good. -/
def linkWidth (good : BitVec 8) : Nat :=
  ([8, 4, 2, 1].find? fun (n : Nat) => (List.range (8 / n)).any fun g => goodGroup good (g * n) n).getD 0

/-- The first lane of the group in use: the first group of that width whose lanes are all good (R357). -/
def linkGroup (good : BitVec 8) : Nat :=
  let w := linkWidth good
  w * ((List.range (8 / w)).find? fun g => goodGroup good (g * w) w).getD 0

/-! Flits (R355, R356). -/

/-- One byte of the CRC-48 with generator x^48 + x^5 + x^3 + x + 1, most significant bit first (R355). -/
def crc48Byte (c b : Nat) : Nat :=
  (List.range 8).foldl (fun c _ => if 2 ^ 47 ≤ c then (2 * (c - 2 ^ 47)) ^^^ 0x2B else 2 * c) (c ^^^ (b * 2 ^ 40))

/-- The CRC-48 of bytes: an initial value of all ones, no final inversion (R355). -/
def crc48 (bs : List Byte) : Nat := bs.foldl (fun c b => crc48Byte c b.toNat) (2 ^ 48 - 1)

/-- Bytes 0 to 121 of a flit, over which the CRC is computed (R355). -/
def flitBody (f : Flit) : List Byte :=
  bytesOfNat 8 (f.ack.getD 0 % 2 ^ 12 + 2 ^ 12 * f.ack.isSome.toNat + 2 ^ 13 * (f.cls % 8) + 2 ^ 16 * f.sop.toNat + 2 ^ 17 * f.eop.toNat
      + 2 ^ 18 * (f.len % 8) + 2 ^ 24 * (f.credit % 256) + 2 ^ 32 * (f.cclass % 8))
    ++ (f.data ++ List.replicate 112 0).take 112 ++ bytesOfNat 2 (f.seq % 2 ^ 12)

/-- The 128 bytes of a flit (R355). -/
def flitBytes (f : Flit) : List Byte := flitBody f ++ bytesOfNat 6 (crc48 (flitBody f))

/-- A flit as a port reads it from its 128 bytes (R355). -/
def readFlit (bs : List Byte) : Flit :=
  let h := word (natOfBytes (bs.take 8))
  { ack := if h.getLsbD 12 then some (bits h 11 0) else none
    cls := bits h 15 13
    sop := h.getLsbD 16
    eop := h.getLsbD 17
    len := bits h 20 18
    credit := bits h 31 24
    cclass := bits h 34 32
    seq := natOfBytes ((bs.drop 120).take 2) % 2 ^ 12
    crcOk := natOfBytes ((bs.drop 122).take 6) == crc48 (bs.take 122)
    data := (bs.drop 8).take 112 }

/-- How far a sequence number lies before another, modulo 4,096. -/
def seqBehind (a b : Nat) : Nat := (b + 4096 - a % 4096) % 4096

/-- An ACK covers the flits up to its sequence number. -/
def Port.acked (p : Port) (a : Nat) : Port := { p with retry := p.retry.filter fun f => decide (256 ≤ seqBehind f.1 a) }

/-- Something sent by a port. -/
def Port.send (p : Port) (o : LinkOut) : Port := { p with out := o :: p.out }

/-- The flits of the retry buffer from a sequence number on are sent again, in order. -/
def Port.resend (p : Port) (from_ : Nat) : Port :=
  (p.retry.filter fun f => decide (seqBehind from_ f.1 < 256)).foldl (fun p f => p.send (.flit f.2)) p

/-! Sending (R349, R355, R356). -/

/-- The flits of a packet: 112 bytes each (R355). -/
def cutPacket (cls : Nat) (bs : List Byte) : List Flit :=
  let n := Nat.max 1 ((bs.length + 111) / 112)
  (List.range n).map fun i =>
    let d := (bs.drop (112 * i)).take 112
    { ack := none
      cls := cls
      sop := i == 0
      eop := i + 1 == n
      len := (d.length + 15) / 16 - 1
      credit := 0
      cclass := 0
      seq := 0
      crcOk := true
      data := d }

/-- The packet slots of a class that the other end has free: 8 at first, one taken by each packet (R349, R355). -/
def Port.slots (p : Port) (cls : Nat) : Nat := (mapGet p.credits cls).getD 8

/-- The next packet that may start: the first whose class has a slot at the other end. -/
def Port.start (p : Port) : Port :=
  match p.pend.find? fun x => p.slots x.1 != 0 with
  | none => p
  | some x =>
    { p with
      pend := p.pend.erase x
      sending := cutPacket x.1 x.2
      credits := mapSet p.credits x.1 (p.slots x.1 - 1) }

/-- The packet slots that the next flit returns: those of one class, at most 255 of them (R355). -/
def Port.credit (p : Port) : Nat × Nat :=
  match p.owed with
  | [] => (0, 0)
  | (c, n) :: _ => (Nat.min 255 n, c)

/-- Packet slots returned are owed no more. -/
def Port.repay (p : Port) (x : Nat × Nat) : Port :=
  let n := (mapGet p.owed x.2).getD 0 - x.1
  { p with owed := if n = 0 then mapErase p.owed x.2 else mapSet p.owed x.2 n }

/-- A flit leaves with the next sequence number and stays in the retry buffer until an ACK covers it (R356); an ACK that is due rides
in it, and packet slots that are to be returned (R355). -/
def Port.sendFlit (p : Port) (f : Flit) : Port :=
  let x := p.credit
  let f := { f with seq := p.nextSeq, credit := x.1, cclass := x.2 }
  let a := if p.ackDue then some ((p.expSeq + 4095) % 4096) else none
  { p.repay x with
    nextSeq := (p.nextSeq + 1) % 4096
    retry := p.retry ++ [(f.seq, f)]
    ackDue := false
    out := .flit { f with ack := a } :: p.out }

/-- Flits leave, packet by packet, while the port is up and fewer than 256 are unacknowledged (R356); at most so many. -/
def Port.push : Nat → Port → Port
  | 0, p => p
  | n + 1, p =>
    if !p.up || decide (256 ≤ p.retry.length) then p
    else
      match p.sending with
      | f :: rest => ({ p with sending := rest }.sendFlit f).push n
      | [] => if (p.start).sending = [] then p else (p.start).push n

/-- A port sends what it can: at most 256 flits, each perhaps the first of its packet. -/
def State.pushPort (s : State) (n : Nat) : State := s.modPort n fun p => p.push 512

/-- A packet leaves the module by a port in service (R349, R429). -/
def State.sendPacket (s : State) (n cls : Nat) (bs : List Byte) : State :=
  if (s.port n).inService then (s.modPort n fun p => { p with pend := p.pend ++ [(cls, bs)] }).pushPort n else s

/-- A withdrawn port that has sent all it holds, with its retry buffer empty, has drained (R429). -/
def Port.drained (p : Port) : Bool := p.draining && p.retry.isEmpty && p.pend.isEmpty && p.sending.isEmpty

/-- PORT_DRAINED is due once a withdrawn port has drained. -/
def State.checkDrained (s : State) (n : Nat) : State := if (s.port n).drained then s.postOnce 0 .portDrained n else s

/-- The NAK that names the expected flit, sent at once and repeated every 64 cycles. -/
def State.sendNak (s : State) (n : Nat) : State :=
  (s.modPort n fun p => { p.send (.nak p.expSeq) with nak := true }).postOnce 64 .nakRepeat n

/-- What the header of a flit says to its port: the ACK of its own flits, and the packet slots returned to it (R355). A flit that
is discarded says nothing. -/
def State.readHeader (s : State) (n : Nat) (f : Flit) : State :=
  let s := s.modPort n fun p =>
    let p := { p with credits := mapSet p.credits f.cclass (p.slots f.cclass + f.credit) }
    match f.ack with
    | none => p
    | some a => p.acked a
  (s.pushPort n).checkDrained n

/-- A flit is accepted: its valid bytes join its packet, which is received with its last flit, and leaves its packet slot, which is to be
returned (R349, R355, R356). -/
def Port.accept (p : Port) (f : Flit) : Port :=
  let d := (if f.sop then [] else p.rx) ++ f.data.take (16 * (f.len + 1))
  { p with
    expSeq := (p.expSeq + 1) % 4096
    delivered := p.delivered + 1
    rx := if f.eop then [] else d
    got := if f.eop then (f.cls, d) :: p.got else p.got
    owed := if f.eop then mapSet p.owed f.cls ((mapGet p.owed f.cls).getD 0 + 1) else p.owed
    nak := false
    ackDue := true }

/-- The die that a port belongs to. -/
def dieOfPort (n : Nat) : Nat := n / 8 % 2

/-- A flit with a bad CRC: the port counts it, as an error that the other end's sending again corrects, and answers by a NAK (R356,
R409, R432). -/
def State.badFlit (s : State) (n : Nat) : State :=
  ((s.modPort n fun p => { p with errs := p.errs + 1 }).raiseRail (dieOfPort n)).sendNak n

/-- LINK_FLIT_RECEIVE: a port receives the 128 bytes of a flit. With a good CRC and the expected SEQ it is accepted; a duplicate is
discarded; any other is discarded and answered by a NAK (R356). Link control has no place in the sequence; while the port retrains
it takes nothing (R357). DEDUCED, notes/assumptions/54.md. -/
def execLinkFlitReceive (s : State) : Host.Outcome State Fault Refusal :=
  let n := s.arg.who
  match s.arg.ext with
  | .bytes bs _ =>
    let p := s.port n
    let f := readFlit bs
    if !p.up then .next s
    else if !f.crcOk then .next (s.badFlit n)
    else if f.cls = 4 then .next (s.readHeader n f)
    else if f.seq = p.expSeq then
      .next (((s.readHeader n f).modPort n fun p => p.accept f).postOnce 64 .ackTimer n)
    else if seqBehind f.seq p.expSeq ≤ 256 then .next s
    else .next (s.sendNak n)
  | _ => .next s

/-- NAK_RECEIVE: every flit from the named sequence on is sent again (R356); while the port retrains it takes nothing (R357). -/
def execNakReceive (s : State) : Host.Outcome State Fault Refusal :=
  .next (s.modPort s.arg.who fun p => if p.up then p.resend s.arg.val else p)

/-- NAK_REPEAT: the NAK is repeated until the expected flit arrives (R356), while the port does not retrain (R357). -/
def execNakRepeat (s : State) : Host.Outcome State Fault Refusal :=
  let p := s.port s.arg.who
  if p.nak && p.up then .next (s.sendNak s.arg.who) else .next s

/-- An idle control flit: the ACK of the last flit received in order, and packet slots of one class (R355, R356). -/
def Port.idleFlit (p : Port) : Port :=
  let x := p.credit
  { (p.repay x).send (.ack ((p.expSeq + 4095) % 4096) x.1 x.2) with ackDue := false }

/-- ACK_TIMER: the last flit received in order is acknowledged within 64 cycles (R356), or once the port has retrained (R357), with the
packet slots that no flit has returned yet, a class in each idle control flit (R355). -/
def execAckTimer (s : State) : Host.Outcome State Fault Refusal :=
  .next (s.modPort s.arg.who fun p =>
    if (p.ackDue || p.owed != []) && p.up then p.owed.tail.foldl (fun q _ => q.idleFlit) p.idleFlit else p)

/-! The network's outputs (R349, R351). -/

/-- A switch output of a die grants its oldest waiting entry; while more wait, it grants again in the next cycle. -/
def State.grantOutput (s : State) (die out : Nat) : State :=
  let ids := (mapGet (s.die die).outQ out).getD []
  match oldestEntry ((s.die die).switchQ.filter fun e => !e.sent && ids.contains e.req.id) with
  | none => s.modDie die fun d => { d with outQ := mapErase d.outQ out }
  | some e =>
    let rest := ids.filter fun i => i != e.req.id
    let t := s.modDie die fun d => { d with outQ := if rest = [] then mapErase d.outQ out else mapSet d.outQ out rest }
    let t := t.sendEntry die e
    if rest = [] then t else t.postOnce 1 .switchOutputGrant die out

/-- SWITCH_OUTPUT_GRANT: an output grants its oldest waiting packet, one a cycle (R351). One that brings the bytes of a packet grants
the output to link port what: the packet, of class val, leaves the module there (R355, R356). DESIGN CHOICE, notes/assumptions/36.md
and 54.md. -/
def execSwitchOutputGrant (s : State) : Host.Outcome State Fault Refusal :=
  match s.arg.ext with
  | .bytes bs _ => .next (s.sendPacket s.arg.what s.arg.val bs)
  | _ => .next (s.grantOutput s.arg.who s.arg.what)

/-! Lanes (R357). -/

/-- LANE_FAILURE: the port stops sending flits and retrains, within 3,600 cycles (R357). DEDUCED, notes/assumptions/40.md. -/
def execLaneFailure (s : State) : Host.Outcome State Fault Refusal :=
  let n := s.arg.who
  let s := s.modPort n fun p => { p with good := p.good &&& ~~~((1 : BitVec 8) <<< s.arg.what), up := false }
  let t := (s.uncorrected (portKey n)).freeRange 1 3600
  .next ((t.2.unpost .retrainDone n).post t.1 .retrainDone n)

/-- A port takes the widest group that its good lanes allow; with no lane it stays down (R357). -/
def Port.train (p : Port) : Port :=
  { p with width := linkWidth p.good, group := linkGroup p.good, up := linkWidth p.good != 0 }

/-- What a port owes the other end after its retraining: the unacknowledged flits from the first on, what waited, its NAK and its ACK. -/
def State.resumePort (s : State) (n : Nat) : State :=
  let s := (s.modPort n fun p => p.retry.foldl (fun q f => q.send (.flit f.2)) p).pushPort n
  let s := if (s.port n).nak then s.sendNak n else s
  if (s.port n).ackDue then s.postOnce 0 .ackTimer n else s

/-- RETRAIN_DONE: the port comes up at the widest width its lanes allow and resends from its first unacknowledged flit; a new width
is told to the bandwidth listeners (R357). -/
def execRetrainDone (s : State) : Host.Outcome State Fault Refusal :=
  let n := s.arg.who
  let p := s.port n
  if p.up then .next s
  else
    let w := linkWidth p.good
    let s := s.modPort n Port.train
    let s := if w = 0 then s else s.resumePort n
    .next (if w = p.width then s else s.linkCapacity 4 n p.width w)

/-! The timebase (R146, R359). -/

/-- The offset of an exchange with the parent: ((t2 − t1) − (t4 − t3)) / 2 (R359). -/
def timeOffset (t1 t2 t3 t4 : Word) : Int := ((t2.toInt - t1.toInt) - (t4.toInt - t3.toInt)) / 2

/-- A die's timebase slewed towards an offset: it gains a tick, or is held for one, so that it never decreases; at most one in 10,000
(R146). What waits for a time is looked at again. DEDUCED, notes/assumptions/55.md. -/
def State.slew (s : State) (die : Nat) (off : Int) : State :=
  let d := s.die die
  let t := s.time die
  let r := s.timeRest die
  if !d.timeSet || off == 0 || decide (s.nanos < d.slewAt + 10000) then s
  else
    let s := s.modDie die fun d => { d with slewAt := s.nanos }
    let s :=
      if off < 0 then s.setTime die t (r - s.mhz)
      else if r < 0 then s.setTime die t (r + s.mhz)
      else s.setTime die (t + 1) r
    s.reDeadline die

/-- Die 1 follows die 0 across the bridge (R359). -/
def State.followDie (s : State) : State := s.slew 1 ((s.time 0).toInt - (s.time 1).toInt)

/-- TIME_FLIT_SEND: every 1 µs a port sends its die's timebase at departure, and die 1 follows die 0 (R359). -/
def execTimeFlitSend (s : State) : Host.Outcome State Fault Refusal :=
  let n := s.arg.who
  let t := s.time (dieOfPort n)
  let s' := if (s.port n).up ∧ (s.port n).inService then s.modPort n fun p => { p.send (.time t) with sentAt := t } else s
  .next ((if (s.die 0).timeSet then s'.followDie else s').post (s.cyclesOf 1000) .timeFlitSend n)

/-- TIME_FLIT_RECEIVE: a TIME flit arrives. val is the departure it carries (t3), what the arrival of the port's own flit at the
other end (t2); the flag says that the port is the one towards the root. From there die 0 slews, and die 1 follows it (R146, R359). -/
def execTimeFlitReceive (s : State) : Host.Outcome State Fault Refusal :=
  let n := s.arg.who
  let t4 := s.time (dieOfPort n)
  let s := s.modPort n fun p => { p with gotAt := t4, peerSent := word s.arg.val }
  match s.arg.ext with
  | .bytes _ true =>
    let off := timeOffset (s.port n).sentAt (word s.arg.what) (word s.arg.val) t4
    let s := (s.modDie 0 fun d => { d with sync := true }).modDie 1 fun d => { d with sync := true }
    .next (if (s.die 0).timeSet then (s.slew 0 off).followDie else s)
  | _ => .next s

/-- SYNC_LOSS: no working path to the time root is left; the timebase counts on, and SYNC reads 0 (R359). -/
def execSyncLoss (s : State) : Host.Outcome State Fault Refusal :=
  .next ((s.modDie 0 fun d => { d with sync := false }).modDie 1 fun d => { d with sync := false })

end Sys2Proof.Machine
end

