-- ==== Sys2Proof/Machine/Leases.lean ====
section
/-!
DEFINITION. The Assay's leases and records: LEASE_START, HANDOVER_DONE, GRACE_DEADLINE, MOVE_DONE, TEST_END, LINE_MOVE,
PORT_DRAINED, SCORE_TICK and HBEAT_TICK (spec/21_reliability_and_leases.md R419 to R433, spec/23_retirement_and_recovery.md R450),
and the stopping and starting of cores that a hand-over and a partition swap share (R330, R379, R423).
-/
namespace Sys2Proof.Machine

/-! Stopping and starting cores (R330, R379, R423). -/

/-- A step of a core's matrix unit is still to come. -/
def State.unitBusy (s : State) (core : Nat) : Bool :=
  s.agenda.any (fun d => (decide (d.ev = .mxGroup) || decide (d.ev = .mxWritesAcked)) && d.arg.who == core)
    || ((s.core core).mx.run.any fun r => r.waiting == 1 || (!r.cmd.multiplies && decide (r.waiting ≠ 4)))

/-- A park that ends by itself. -/
def Wait.brief : Wait → Bool
  | .regs | .handler | .restore | .access _ | .accepted | .probes | .escalation | .pageMove | .object _ false => true
  | _ => false

/-- A context is at rest: out of a slot, or parked in it with nothing of it under way. -/
def Ctx.atRest (c : Ctx) : Bool :=
  c.slot.isNone || decide (c.st = .swapped) || c.kill.isSome ||
  (decide (c.st = .parked) && !c.resuming && c.pend.isEmpty && c.outstanding.isNone && (!c.wait.brief || c.arrived))

/-- A core has come to rest: its slots, its accesses and its matrix unit. -/
def State.coreDrained (s : State) (core : Nat) : Bool :=
  ((s.ctxsOf core).all fun x => x.2.atRest) && (s.accs.all fun a => a.core != core || s.isHeld a) && !s.unitBusy core

/-- A stopped command of a matrix unit goes on from its next unit (R330); that of a killed context ends where it stopped (R331). -/
def State.resumeRun (s : State) (core : Nat) : State :=
  let mx := (s.core core).mx
  let go := fun (s : State) (r : Option MxRun) =>
    match r with
    | none => s
    | some r =>
      if r.waiting ≠ 0 then s
      else if s.sameCtx r.cmd.gid r.cmd.gen then s.beginUnit core r 0
      else if r.part then s.endPart core r 1 none else s.endMx core
  let s := go (go s mx.run) mx.part
  let s := if mx.run.any fun r => r.waiting == 4 then s.postOnce 1 .accstDigestCompare (core / 2 * 2) else s
  s.postOnce 1 .mxCommandStart core

/-- The slots of a core that may issue again resume (R179). -/
def State.resumeSlots (s : State) (core : Nat) : State :=
  (s.ctxsOf core).foldl (fun s x =>
    let c := s.ctx x.1
    if c.st = .parked ∧ c.slot.isSome ∧ (c.wait = .lease ∨ c.wait = .halted true ∨ c.arrived) then
      (s.setCtx x.1 { c with arrived := false }).awaken x.1
    else s) s

/-- A core in service again: its L1 caches are invalidated, its unit and its slots go on, unless its cluster is halted. -/
def State.startCore (s : State) (core : Nat) : State :=
  let off := (s.cluster (clusterOf core)).halted
  let s := s.modCore core fun k => { k.invalidate with l1i := [], leaseHold := false, mx := { k.mx with halted := off } }
  if off then s else ((s.resumeRun core).resumeSlots core).kick core

/-- A core stops: its slots park at their next turns, and its matrix unit stops at a group boundary. -/
def State.holdCore (s : State) (core : Nat) : State :=
  s.modCore core fun k => { k with leaseHold := true, mx := { k.mx with halted := true } }

/-! Which leases are due (R420). -/

/-- The class of a resource by its number. -/
def classOfKey (key : Nat) : ResClass := if key < 2000 then .core else if key < 3000 then .channel else .port

/-- A resource's position, as in the lease log (R421). -/
def posOfKey (key : Nat) : Nat := if key < 2000 then key else if key < 3000 then key - 2000 else key - 3000

/-- The number of a class. -/
def classNum : ResClass → Nat
  | .core => 0
  | .channel => 1
  | .port => 2

/-- The resources of a class. -/
def classKeys : ResClass → List Nat
  | .core => List.range 1152
  | .channel => (List.range 320).map fun h => 2000 + h
  | .port => (List.range 16).map fun p => 3000 + p

/-- The interval of a class in nanoseconds: 12 h, 24 h and 6 h (R420). -/
def classInterval : ResClass → Nat
  | .core => 43200000000000
  | .channel => 86400000000000
  | .port => 21600000000000

/-- The longest test of a class in nanoseconds: 400 ms, 20 s of a channel's 40 s, 100 ms (R420). -/
def classTestTime : ResClass → Nat
  | .core => 400000000
  | .channel => 20000000000
  | .port => 100000000

/-- A lease in progress of a resource. -/
def State.leaseOf (s : State) (key : Nat) : Option Lease := s.assay.leases.find? fun l => l.key == key

/-- A lease changed. -/
def State.modLease (s : State) (key : Nat) (f : Lease → Lease) : State :=
  { s with assay := { s.assay with leases := s.assay.leases.map fun l => if l.key = key then f l else l } }

/-- A lease becomes due, and stays so until it is performed; one that becomes due during the resource's own lease follows it. -/
def State.makeDue (s : State) (key : Nat) : State :=
  let a := s.assay
  if a.gone.contains key || a.due.any (fun d => d.1 == key) then s
  else { s with assay := { a with due := a.due ++ [(key, s.cycle)] } }

/-- The resources of a class whose interval has passed become due; the class is looked at again when the next one's passes. -/
def State.intervalDue (s : State) (c : ResClass) : State :=
  let next := fun (s : State) (k : Nat) => (mapGet s.assay.last k).getD 0 + classInterval c
  let t := ((classKeys c).filter fun k => decide (next s k ≤ s.nanos)).foldl State.makeDue s
  let later := ((classKeys c).map (next s)).filter fun e => decide (s.nanos < e)
  t.post (s.cyclesOf (later.min?.getD (s.nanos + classInterval c) - s.nanos)) .leaseStart (classNum c) 1

/-- Before another: the higher score, then the earlier due time, then the lower number. DESIGN CHOICE, notes/assumptions/43.md. -/
def State.dueBefore (s : State) (a b : Nat × Nat) : Bool :=
  decide (s.score b.1 < s.score a.1) || (s.score a.1 == s.score b.1 && (decide (a.2 < b.2) || (a.2 == b.2 && decide (a.1 ≤ b.1))))

/-- A due lease put into its place. -/
def State.insertDue (s : State) (x : Nat × Nat) : List (Nat × Nat) → List (Nat × Nat)
  | [] => [x]
  | y :: ys => if s.dueBefore x y then x :: y :: ys else y :: s.insertDue x ys

/-- The die whose Assay leases a resource (R419). -/
def assayOfKey (key : Nat) : Nat := if key < 3000 then dieOfKey key else dieOfPort (key - 3000)

/-- The exchange of a partition swap is under way on a cluster (R380). -/
def State.exchanging (s : State) (cl : Nat) : Bool :=
  !s.pf.done && s.agenda.any fun n => decide (n.ev = .swapExchangeDone) &&
    ((s.part n.arg.who).clusters.getLsbD cl || (s.part n.arg.what).clusters.getLsbD cl)

/-- The lease of a resource may start now (R420, R428): none of its own is in progress, one core a cluster and none during a halt or swap, two channels a die in
different stacks, one port; and none on a die whose firmware was not started (R419, R452). -/
def State.mayLease (s : State) (key : Nat) : Bool :=
  let ls := s.assay.leases
  !(s.die (assayOfKey key)).bootFail && (s.leaseOf key).isNone &&
  match classOfKey key with
  | .core =>
    !(s.cluster (key / 9)).halted && !s.exchanging (key / 9) && ls.all fun l => decide (l.cls ≠ .core) || l.pos / 9 != key / 9
  | .channel =>
    let h := key - 2000
    let mine := ls.filter fun l => decide (l.cls = .channel) && l.pos / Config.slices == h / Config.slices
    decide (mine.length < 2) && mine.all (fun l => l.pos % Config.slices / 32 != h % Config.slices / 32)
      && !(s.die (h / Config.slices)).reserveLow
  | .port => ls.all fun l => decide (l.cls ≠ .port)

/-! Starting (R422 to R424, R428, R429). -/

/-- The present cores of a cluster. -/
def State.presentOf (s : State) (cl : Nat) : List Nat :=
  ((List.range 8).map fun k => 8 * cl + k).filter fun c => (s.core c).present

/-- A lease enters the list of those in progress and is due no more. -/
def State.openLease (s : State) (key path ident stage : Nat) (grace : Word) : State :=
  let cls := classOfKey key
  let l : Lease := ⟨key, cls, posOfKey key, path, ident, s.time (dieOfKey key), s.score key, 0, stage, s.cycle, grace⟩
  { s with assay := { s.assay with
      leases := s.assay.leases ++ [l]
      due := s.assay.due.filter fun d => d.1 != key
      last := mapSet s.assay.last key s.nanos } }

/-- The test of a lease begins; it ends within its class's time. -/
def State.startTest (s : State) (key : Nat) : State :=
  let t := (s.modLease key fun l => { l with stage := 3 }).freeRange 1 (s.cyclesOf (classTestTime (classOfKey key)))
  t.2.post t.1 .testEnd key

/-- The lease of a core's position: of the idle spare, with a hand-over to the spare, or with notice and a capacity move. -/
def State.leaseCore (s : State) (key : Nat) : State :=
  let cl := key / 9
  let x := s.cluster cl
  if key % 9 = x.sparePos then
    ((s.openLease key 4 0xFFF 3 0).modCluster cl fun x => { x with sparePresent := false }).startTest key
  else
    match x.served (key % 9) with
    | none => s
    | some k =>
      let core := 8 * cl + k
      if x.sparePresent then
        (((s.openLease key 0 core 0 0).modCluster cl fun x => { x with leasedCore := some core }).holdCore core).post 16 .handoverDone key
      else
        let grace := s.time (dieOfCore core) + 10000000
        let n := (s.presentOf cl).length
        let s := s.openLease key 1 core 1 grace
        let s := match s.partOfCore core with
          | none => s
          | some v => s.postCapacity v 0 1 (s.relCore core) n (n - 1) grace
        ((s.leaseOf key).map s.postGrace).getD s

/-- The lines of a channel that hold something: those of its frame area and of its saggar slots (R70, R428). -/
def channelLines : Nat := (7520 + saggarSlots) * Config.lineSlots

/-- One line's move to or from the reserve, within a share of the lease's 40 s (R420, R428). -/
def State.postLine (s : State) (sl : Nat) : State := let t := s.freeRange 64 2048; t.2.post t.1 .lineMove sl

/-- The lease of a resource starts. -/
def State.startLease (s : State) (key : Nat) : State :=
  match classOfKey key with
  | .core => s.leaseCore key
  | .channel =>
    let sl := key - 2000
    ((s.openLease key 2 0 2 0).modSlice sl fun x => { x with leased := true, moveNext := 0 }).postLine sl
  | .port =>
    let p := key - 3000
    let n := (s.port p).width
    let s := (s.openLease key 3 0 2 0).modPort p fun p => { p with inService := false, draining := true }
    (s.linkCapacity 1 p n 0).checkDrained p

/-! Hand-over (R423). -/

/-- The spare serves the leased core's number: the positions change places, and LEASE.MOVES advances in the contexts it carries. -/
def State.handOver (s : State) (core : Nat) : State :=
  let cl := clusterOf core
  let s := s.modCluster cl fun x =>
    { x with
      positions := x.positions.set (core % 8) x.sparePos
      sparePos := x.positions.getD (core % 8) (core % 8)
      spareSvec := (s.core core).svec
      sparePresent := false
      leasedCore := none }
  let s := (s.ctxsOf core).foldl (fun s x => s.modCtx x.1 fun c => { c with moves := c.moves + 1 }) s
  s.startCore core

/-- HANDOVER_DONE: the core is looked at until it is at rest (what = 0); then the copy runs, and the spare resumes it (1), within
108,000 cycles (R423). -/
def execHandoverDone (s : State) : Host.Outcome State Fault Refusal :=
  let key := s.arg.who
  match s.leaseOf key with
  | none => .next s
  | some l =>
    if l.stage ≠ 0 then .next s
    else if !s.coreDrained l.ident then .next (s.post 16 .handoverDone key)
    else if s.arg.what = 0 then
      let t := s.freeRange 1 100000
      .next (t.2.post t.1 .handoverDone key 1)
    else
      let s := s.modLease key fun l => { l with hold := s.cycle - l.since }
      .next ((s.handOver l.ident).startTest key)

/-! The capacity move (R425). -/

/-- A context takes QUOTA at its next turn when its partition's saggar charge exceeds the quota (R425). -/
def State.chargeMove (s : State) (g n : Nat) : State :=
  let past := !s.saggarRoomFor g n
  let s := s.chargeSaggar g n
  if past then s.modCtx g fun c => { c with async := c.async ++ [Cause.quota] } else s

/-- The present core of the cluster with the most free entries in its thread-context cache, the lowest of several. -/
def State.moveTarget (s : State) (core : Nat) : Option Nat :=
  firstBest (fun k => 48 - (s.core k).tcc.length) ((s.presentOf (clusterOf core)).filter fun k => k != core)

/-- A context leaves everything of its core: its slot, its queue entry, its image, its steps to come. -/
def State.leaveCore (s : State) (g : Nat) : State :=
  let core := s.at g
  let s := s.modCore core fun k =>
    { k with
      slots := k.slots.map fun u => if u.2.occ = some g then (u.1, { u.2 with occ := none, freeAt := s.cycle + 48 }) else
        if u.2.reserved = some g then (u.1, { u.2 with reserved := none }) else u
      ready := k.ready.filter fun r => r.gid != g
      tcc := k.tcc.filter fun h => h != g }
  { s with agenda := s.agenda.filter fun d =>
      !((d.arg.who == g && (decide (d.ev = .fetch) || decide (d.ev = .parkResume))) || (d.arg.what == g && decide (d.ev = .imageFetch))) }

/-- The wait of a context as it stands at its new core: what only held it at the old one is over. -/
def Wait.moved : Wait → Wait
  | .lease | .fetchFill | .halted true => .none
  | w => w

/-- A context awaits something still. -/
def Ctx.waits (c : Ctx) : Bool := decide (c.wait.moved ≠ .none) && !c.arrived

/-- A context's record at its new core. -/
def Ctx.relocate (c : Ctx) (g core : Nat) : Ctx :=
  { c with
    moved := if coreOf g = core then none else some core
    slot := none, latch := none, fills := [], resuming := false, moves := c.moves + 1
    wait := if c.transfer.isSome then .none else c.wait.moved
    transfer := none
    held := match c.held with
      | some (.matrix cmd d) => some (.matrix { cmd with core := core } d)
      | h => h }

/-- The messages of a context follow it to its new core. -/
def State.moveMessages (s : State) (g old core : Nat) : State :=
  let k := s.core old
  let inb := k.inbox.filter fun m => m.dest == g
  let sag := k.saggarMsgs.filter fun m => m.dest == g
  let s := s.setCore old { k with inbox := k.inbox.filter fun m => m.dest != g, saggarMsgs := k.saggarMsgs.filter fun m => m.dest != g }
  let s := inb.foldl (fun s m =>
    if (s.core core).inbox.length < 64 then s.modCore core fun k => { k with inbox := k.inbox ++ [m] }
    else (s.modCore core fun k => { k with saggarMsgs := k.saggarMsgs ++ [m] }).chargeMove g 32) s
  s.modCore core fun k => { k with saggarMsgs := k.saggarMsgs ++ sag }

/-- An image enters a cache that has a free entry, or the saggar. -/
def State.placeImage (s : State) (g core : Nat) : State :=
  if (s.core core).tcc.length < 48 then s.modCore core fun k => { k with tcc := k.tcc ++ [g] }
  else (s.saggarWrite (dieOfCore core) (s.saggarByte g 0) 2048).chargeMove g 2048

/-- One context moved: Cached or Ready at its new core, or Spilled. -/
def State.moveContext (s : State) (old g : Nat) : State :=
  match s.moveTarget old with
  | none => s
  | some core =>
    let c := s.ctx g
    let inCache := c.slot.isSome || (s.core old).tcc.contains g
    let s := (s.leaveCore g).setCtx g (c.relocate g core)
    let s := if inCache then s.placeImage g core else s
    let s := s.moveMessages g old core
    if c.waits then
      let s := s.modCtx g fun d => { d with st := if (s.core core).tcc.contains g then .cached else .spilled }
      s.grantAllMatrix core 32
    else s.makeReady g rankWoken

/-- The pairs of present cores that a pair may move to: those of its cluster, or, where that has no other, those of its partition. -/
def State.pairTargets (s : State) (lead : Nat) : List Nat :=
  let ok := fun k => k % 2 == 0 && k != lead && (s.core k).present && (s.core (k + 1)).present
  let near := (s.presentOf (clusterOf lead)).filter ok
  if near = [] then (s.coresOf lead).filter ok else near

/-- A pair that a capacity move takes from its cores: one queued entry at the pair with the most common free slots, the lowest of several
(R154, R425). DESIGN CHOICE, notes/assumptions/43.md. -/
def State.movePair (s : State) (lead g h : Nat) : State :=
  match firstBest (fun k => (s.pairSlots k).length) (s.pairTargets lead) with
  | none => s
  | some core =>
    let one := fun (s : State) (x : Nat × Nat) =>
      let c := s.ctx x.1
      let old := s.at x.1
      let s := (s.leaveCore x.1).setCtx x.1 { c.relocate x.1 x.2 with st := .ready }
      ((s.placeImage x.1 x.2).moveMessages x.1 old x.2)
    let s := one (one s (g, core)) (h, core + 1)
    (s.makeReady g rankWoken).kick (lead + 1)

/-- Deque records pass on, the topmost first, each receiver taking what it has room for (R425). -/
def State.passRecords (s : State) : List TaskRec → List Nat → State × List TaskRec
  | recs, [] => (s, recs)
  | recs, k :: ks =>
    let room := 128 - (s.core k).deque.length
    let s := (s.modCore k fun c => { c with deque := c.deque ++ recs.drop (recs.length - room) }).kick k
    s.passRecords (recs.take (recs.length - room)) ks

/-- The present cores of a partition after a core, in partition-relative order, wrapping. -/
def State.coresAfter (s : State) (core : Nat) : List Nat :=
  let l := s.coresOf core
  let i := s.relCore core
  (l.drop (i + 1) ++ l.take i).filter fun k => (s.core k).present

/-- The matrix commands of a core that leaves: queued ones are removed, the stopped one and a part end, each with ABSENT_CORE; an entry
stays until its message is accepted (R341, R425). -/
def State.moveUnit (s : State) (core : Nat) : State :=
  let mx := (s.core core).mx
  let s := s.modCore core fun k =>
    { k with mx := { k.mx with queue := (k.mx.queue.filter fun d => d.failed || !s.trails d.gid).map fun d => { d with failed := true } } }
  let s := mx.queue.foldl (fun s d =>
    if s.trails d.gid || d.failed then s
    else (s.recordEngine d.gid (engineTval d.seq Cause.absentCore 0) 0).mxRemoved core Cause.absentCore d) s
  let s := match mx.part with
    | none => s
    | some p => if p.waiting = 1 then s else s.endPart core p 1 (some (Cause.absentCore, p.next, none))
  match mx.run with
  | none => s
  | some r =>
    let kiln := clusterOf core / 2 * 2
    if r.waiting = 5 then
      if (s.cluster kiln).gmmaQ.any fun j => j.core == core then
        (s.modCluster kiln fun x => { x with gmmaQ := x.gmmaQ.filter fun j => j.core != core }).mxFault core r Cause.absentCore 0 0 none
      else s
    else if r.waiting = 0 ∨ r.waiting = 4 then s.mxFault core r Cause.absentCore r.next 0 none
    else s

/-- The cells of a core's local memory. -/
def isSlab (core : Nat) (c : Host.Cell) : Bool := decide (slabPlace core 0 ≤ c.1) && decide (c.1 < slabPlace (core + 1) 0)

/-- Local memory and accumulators saved to the saggar (R425). -/
def State.saveSlab (s : State) (core : Nat) : State :=
  let y : SavedCore := ⟨core, (s.partOfCore core).getD 0, s.mem.filter (isSlab core), (s.core core).mx.acc⟩
  let s := { s with mem := s.mem.filter fun c => !isSlab core c }.modCore core fun k => { k with mx := { k.mx with acc := [] } }
  let s := s.saggarWrite (dieOfCore core) (saveByte (clusterOf core)) 327680
  s.modCluster (clusterOf core) fun x => { x with saved := x.saved ++ [y] }

/-- Cells put back into memory. -/
def State.putCells (s : State) (cells : List Host.Cell) : State := { s with mem := cells.foldl (fun m c => memSet m c.1 c.2) s.mem }

/-- The poison marks that a restored memory brings with it from the saggar: of local memory, or of the 16 cells of a sector of
accumulators (R411). -/
def State.savedPoison (s : State) (core : Nat) : List Nat :=
  let lo := saggarPlace (dieOfCore core) (saveByte (clusterOf core)) / 64
  (s.poison.filter fun m => decide (lo ≤ m) && decide (m < lo + 5120)).flatMap fun m =>
    if m - lo < 4096 then [slabPlace core 0 / 64 + (m - lo)] else (List.range 16).map fun i => cellPoison core (16 * (m - lo - 4096) + i)

/-- Accumulators given back to a core's unit. -/
def Core.putAcc (k : Core) (acc : Map (BitVec 32)) : Core := { k with mx := { k.mx with acc := acc } }

/-- Saved memory restored to the partition that it belongs to: in service, or in the cluster's shadow storage (R426). -/
def State.restoreSlab (s : State) (core : Nat) : State :=
  let cl := clusterOf core
  let x := s.cluster cl
  match x.saved.find? fun e => e.core == core with
  | none => s
  | some e =>
    let bad := s.savedPoison core
    let s := s.modCluster cl fun x => { x with saved := x.saved.filter fun e => e.core != core }
    if x.shadow.any fun y => y.vf == e.vf then
      s.modCluster cl fun x => { x with shadow := x.shadow.map fun y =>
        if y.vf = e.vf then
          { y with
            slab := y.slab ++ e.slab, poison := y.poison ++ bad
            cores := y.cores.map fun k => if k.1 = core then (k.1, k.2.putAcc e.acc) else k }
        else y }
    else { (s.putCells e.slab).modCore core fun k => k.putAcc e.acc with poison := s.poison ++ bad }

/-- MOVE of a core's work (R425): commands, contexts, pairs, memory, records, arrival matches; the core is absent from then on. -/
def State.moveCore (s : State) (core : Nat) : State :=
  let s := s.moveUnit core
  let s := (s.ctxsOf core).foldl (fun s x =>
    match x.2.twin with
    | none => s.moveContext core x.1
    | some t => if (s.ctx x.1).at x.1 ≠ core then s
                else if t.leader then s.movePair core x.1 t.partner else s.movePair (core - 1) t.partner x.1) s
  let s := s.saveSlab core
  let p := s.passRecords (s.core core).deque (s.coresAfter core)
  let s := p.1.modCore core fun k =>
    { k with
      deque := p.2, arrivals := [], present := false, leaseHold := false, thief := ⟨0, none, 0, 256, none⟩
      mx := { k.mx with halted := false } }
  s.kickPlacing

/-- GRACE_DEADLINE: the deadline passes, and MOVE begins: the core stops (R425). During a partition halt it waits (R420). While the timebase
stands, no deadline passes, and TIMESET has it looked at (R146). -/
def execGraceDeadline (s : State) : Host.Outcome State Fault Refusal :=
  let key := s.arg.who
  match s.leaseOf key with
  | none => .next s
  | some l =>
    if l.stage ≠ 1 then .next s
    else if !s.passed (dieOfCore l.ident) l.grace then .next (s.postGrace l)
    else if (s.cluster (key / 9)).halted then .next (s.post 64 .graceDeadline key)
    else .next (((s.modLease key fun l => { l with stage := 2, since := s.cycle }).holdCore l.ident).post 16 .moveDone key)

/-- MOVE_DONE: the core is looked at until it is at rest (what = 0); then the move is made (1), and the test starts. -/
def execMoveDone (s : State) : Host.Outcome State Fault Refusal :=
  let key := s.arg.who
  match s.leaseOf key with
  | none => .next s
  | some l =>
    if l.stage ≠ 2 ∨ l.cls ≠ .core then .next s
    else if !s.coreDrained l.ident then .next (s.post 16 .moveDone key)
    else if s.arg.what = 0 then
      let t := s.freeRange 1 1048576
      .next (t.2.post t.1 .moveDone key 1)
    else
      let s := s.modLease key fun l => { l with hold := s.cycle - l.since }
      .next ((s.moveCore l.ident).startTest key)

/-! Channels and ports (R428, R429). -/

/-- LINE_MOVE: a line of a leased channel is remapped, and the next one moves; after the last, the test starts, or the channel has
its lines back (R428). -/
def execLineMove (s : State) : Host.Outcome State Fault Refusal :=
  let sl := s.arg.who
  let x := s.slice sl
  if !x.leased ∨ channelLines ≤ x.moveNext then .next s
  else
    let s := s.modSlice sl fun x => { x with moveNext := x.moveNext + 1, inQ := x.moving ++ x.inQ, moving := [] }
    let s := (s.postOnce 0 .hbmChannelServe sl).postOnce 1 .sliceDataServe sl
    match s.leaseOf (channelKey sl) with
    | none => .next s
    | some l =>
      let s := s.modLease l.key fun l => { l with hold := l.hold + 1 }
      if x.moveNext + 1 < channelLines then .next (s.postLine sl)
      else if l.stage = 2 then .next ((s.modSlice sl fun x => { x with movedOut := true, moveNext := 0 }).startTest l.key)
      else .next ((s.modSlice sl fun x => { x with movedOut := false }).post 0 .testEnd l.key 1)

/-- PORT_DRAINED: ordered routes go over the ports still in service, and the test starts (R429). -/
def execPortDrained (s : State) : Host.Outcome State Fault Refusal :=
  let n := s.arg.who
  let p := s.port n
  if p.drained then .next ((s.modPort n fun p => { p with draining := false }).startTest (portKey n)) else .next s

/-! Records (R421, R433). -/

/-- The lease log record l0 to l3 (R421). -/
def leaseRecord (l : Lease) (now : Word) (result seq : Nat) : List Word :=
  [l.start, now,
   word (classNum l.cls + 1 + 2 ^ 4 * l.pos + 2 ^ 16 * l.ident + 2 ^ 28 * l.path + 2 ^ 32 * result + 2 ^ 48 * l.score),
   word (l.hold % 2 ^ 32 + 2 ^ 32 * (seq % 2 ^ 32))]

/-- The bytes of a record. -/
def recordBytes (r : List Word) : List Byte := r.flatMap fun w => bytesOfNat 8 w.toNat

/-- The retirement record x0 to x7 of a resource by its class, position and lane (R433). -/
def retireRecord (seq cls pos lane : Nat) (now : Word) (why score pattern leaseSeq : Nat) (addr : Word) (prev : List (List Word)) :
    List Word :=
  let d := match prev with | [] => 0 | r :: _ => Config.sha384 (recordBytes r) % 2 ^ 128
  [word (seq % 2 ^ 32 + 2 ^ 32 * cls + 2 ^ 36 * pos + 2 ^ 48 * lane), now, word (why + 2 ^ 8 * score + 2 ^ 32 * pattern),
   word (leaseSeq % 2 ^ 32 + 2 ^ 32 * (Config.assayVersion % 2 ^ 32)), addr, 0, word d, word (d / 2 ^ 64)]

/-- A retirement: its record joins the chain, whose head is signed with both keys; the resource never returns (R433). -/
def State.recordRetirement (s : State) (key cls pos lane : Nat) (now : Word) (why score pattern leaseSeq : Nat) (addr : Word) : State :=
  let a := s.assay
  let r := retireRecord a.retired.length cls pos lane now why score pattern leaseSeq addr a.retired
  let d := Config.sha384 (recordBytes r)
  { s with assay := { a with
      retired := r :: a.retired, head := [d, Config.sign 0 d, Config.sign 1 d], gone := key :: a.gone
      due := a.due.filter fun x => x.1 != key } }

/-- The resource of a lease is retired at its end. -/
def State.retireResource (s : State) (l : Lease) (now : Word) (why pattern leaseSeq : Nat) (addr : Word) : State :=
  s.recordRetirement l.key (classNum l.cls + 1) l.pos 0 now why (s.score l.key) pattern leaseSeq addr

/-- The highest 48 frames of a die, one channel's share of the reserve (R70, R428), are unused: they are named by no usable entry of its
frame table and do not hold the table. -/
def State.topFramesUnused (s : State) (die : Nat) : Bool :=
  let lo := (s.die die).frames.toNat - 48
  decide ((s.die die).framebase.toNat < lo) && (List.range (2 ^ 20)).all fun page =>
    let e := s.pageEntry die page
    !s.entryUsable die e || decide (bits e 29 16 < lo)

/-- The reserve of a die is rebuilt from its highest frames, or too few of them are unused (R428). -/
def State.rebuildReserve (s : State) (die sl : Nat) : State :=
  let n := (s.die die).frames
  if !s.topFramesUnused die then s.modDie die fun d => { d with reserveLow := true }
  else
    let s := s.modDie die fun d => { d with frames := d.frames - 48, reserveLow := false }
    let vs := s.enabledParts.filter fun v => (s.part v).clusterList.any fun c => c / 64 == die
    vs.foldl (fun s v => s.postCapacity v 1 3 sl (n.toNat / 64) ((n - 48).toNat / 64) 0) s

/-- Frames that the supervisor freed since let the reserve of a die be rebuilt (R428). -/
def State.retryReserve (s : State) (die : Nat) : State :=
  match s.assay.gone.find? fun k => decide (2000 ≤ k) && decide (k < 3000) && (k - 2000) / Config.slices == die with
  | some k => if (s.die die).reserveLow then s.rebuildReserve die (k - 2000) else s
  | none => s

/-! The end of a test (R422, R426, R428, R429). -/

/-- A core passed: it is the spare, or back in service with its memory (R422, R426). -/
def State.corePassed (s : State) (l : Lease) : State :=
  let cl := l.key / 9
  if l.path ≠ 1 then s.modCluster cl fun x => { x with sparePresent := true }
  else
    let n := (s.presentOf cl).length
    let s := (s.restoreSlab l.ident).modCore l.ident fun k => { k with present := true }
    let s := match s.partOfCore l.ident with
      | none => s
      | some v => s.postCapacity v 0 2 (s.relCore l.ident) n (n + 1) 0
    (s.startCore l.ident).kickPlacing

/-- A core failed: after a capacity move its partition learns of the retirement (R426). DEDUCED, notes/assumptions/46.md. -/
def State.coreFailed (s : State) (l : Lease) : State :=
  if l.path ≠ 1 then s
  else
    let n := (s.presentOf (l.key / 9)).length
    match s.partOfCore l.ident with
    | none => s
    | some v => s.postCapacity v 0 3 (s.relCore l.ident) n n 0

/-- The key of a lane of a port, as a resource that can be retired (R433). -/
def laneKey (n lane : Nat) : Nat := 4000 + 8 * n + lane

/-- A port passed: it returns with the lanes whose retest passed, at the widest width they allow; a lane that had failed and fails its
retest is retired (R420, R429, R433). DEDUCED, notes/assumptions/51.md. -/
def State.portPassed (s : State) (l : Lease) : State :=
  let n := l.key - 3000
  let f := s.freeNat
  let old := (s.port n).good
  let bad := (List.range 8).filter fun i => !old.getLsbD i && !s.assay.gone.contains (laneKey n i)
  let good := bad.foldl (fun (g : BitVec 8) i => if f.1.testBit i then g ||| (1 <<< i) else g) old
  let now := s.time (dieOfPort n)
  let s := bad.foldl (fun s i =>
    if f.1.testBit i then s else s.recordRetirement (laneKey n i) 4 n i now 1 (s.score l.key) 0 s.assay.leaseLog.seq 0) f.2
  let s := s.modPort n fun p => { p with good := good, inService := true }.train
  s.linkCapacity 2 n 0 (linkWidth good)

/-- A lease is over: its log record, and the next due leases. -/
def State.closeLease (s : State) (l : Lease) (result : Nat) : State :=
  let a := s.assay
  let now := s.time (dieOfKey l.key)
  let rec_ := leaseRecord l now result a.leaseLog.seq
  let i := classNum l.cls
  let s := { s with assay := { a with
      leases := a.leases.filter fun x => x.key != l.key
      leaseLog := a.leaseLog.push 4096 rec_
      leaseCounts := a.leaseCounts.set i (a.leaseCounts.getD i 0 + 1) } }
  s.postOnce 1 .leaseStart 0 2

/-- What a test found: what the step brings, else a free value (notes/assumptions/5.md). -/
def State.testOutcome (s : State) : TestOutcome × State :=
  match s.arg.ext with
  | .test _ o => (o, s)
  | _ =>
    let n := s.freeNat
    if n.1 % 2 = 0 then (.passed, n.2)
    else (.failed (BitVec.ofNat 32 (n.1 / 4)) (word (n.1 / 2 ^ 34)) (n.1 / 2 % 2 == 1), n.2)

/-- A resource passes its test: a channel's lines move back first. -/
def State.passLease (s : State) (l : Lease) : State :=
  match l.cls with
  | .core => (s.corePassed l).closeLease l 0
  | .channel =>
    let sl := l.key - 2000
    (s.modLease l.key fun l => { l with stage := 4 }).postLine sl
  | .port => (s.portPassed l).closeLease l 0

/-- A resource is retired at the end of its lease. DESIGN CHOICE, notes/assumptions/43.md. -/
def State.failLease (s : State) (l : Lease) (o : TestOutcome) : State :=
  let f : Nat × Word × Bool := match o with
    | .passed => (0, 0, false)
    | .failed p a u => (p.toNat, a, u)
  let failed := decide (o ≠ .passed)
  let why := if f.2.2 then 4 else if failed then 1 else if s.assay.predicted.contains l.key then 3 else 2
  let now := s.time (dieOfKey l.key)
  let s := s.retireResource l now why f.1 s.assay.leaseLog.seq f.2.1
  let s := s.closeLease l (if failed then 1 else 2)
  match l.cls with
  | .core => s.coreFailed l
  | .channel => (s.modSlice (l.key - 2000) fun x => { x with leased := false }).rebuildReserve ((l.key - 2000) / Config.slices) (l.key - 2000)
  | .port => s.linkCapacity 3 (l.key - 3000) 0 0

/-- TEST_END: a test ends: the resource returns, becomes the spare, or is retired, by the test or by its score at the start (R420,
R422); with what = 1 a channel has its lines back, and its lease ends. -/
def execTestEnd (s : State) : Host.Outcome State Fault Refusal :=
  let key := s.arg.who
  match s.leaseOf key with
  | none => .next s
  | some l =>
    if s.arg.what = 1 then
      if l.stage = 4 then .next ((s.modSlice (key - 2000) fun x => { x with leased := false }).closeLease l 0) else .next s
    else if l.stage ≠ 3 then .next s
    else
      let o := s.testOutcome
      if o.1 = .passed ∧ l.score < 16384 then .next (o.2.passLease l) else .next (o.2.failLease l o.1)

/-- LEASE_START: a resource becomes due (what = 0), the interval of a class passes (1), or a lease has ended (2); the due leases
that may start do, in order of score (R420, R428). -/
def execLeaseStart (s : State) : Host.Outcome State Fault Refusal :=
  let who := s.arg.who
  let s := match s.arg.what with
    | 0 => s.makeDue who
    | 1 => s.intervalDue (if who = 0 then .core else if who = 1 then .channel else .port)
    | _ => s
  let s := (s.retryReserve 0).retryReserve 1
  let order := s.assay.due.foldr (fun x l => s.insertDue x l) []
  .next (order.foldl (fun s d => if s.mayLease d.1 then s.startLease d.1 else s) s)

/-! Periodic steps. -/

/-- The Assay of some die runs, and advances HBEAT (R419, R452). DESIGN CHOICE, notes/assumptions/72.md. -/
def State.assayRuns (s : State) : Bool := !((s.die 0).bootFail && (s.die 1).bootFail)

/-- SCORE_TICK: every 6 hours the Assay halves each score, rounding down (R430); one that does not run halves none (R452). -/
def execScoreTick (s : State) : Host.Outcome State Fault Refusal :=
  let t := if s.assayRuns then
      { s with assay := { s.assay with scores := s.assay.scores.map fun (x : Nat × Nat) => (x.1, x.2 / 2) } }
    else s
  .next (t.post (s.cyclesOf 21600000000000) .scoreTick 0)

/-- HBEAT_TICK: HBEAT advances every 100 ms (R450). -/
def execHbeatTick (s : State) : Host.Outcome State Fault Refusal :=
  let t := if s.assayRuns then { s with assay := { s.assay with hbeat := s.assay.hbeat + 1 } } else s
  .next (t.post (s.cyclesOf 100000000) .hbeatTick 0)

end Sys2Proof.Machine
end

