-- ==== Sys2Proof/Machine/HostPort.lean ====
section
/-!
DEFINITION. Partition swaps, and the host's accesses through BAR2 and BAR4: SWAPCTL_HALT, HALT_DRAINED, SWAPCTL_GO,
SWAP_EXCHANGE_DONE (spec/18_traps_and_preemption.md R378 to R380), BAR4_WRITE, BAR4_READ, BAR2_READ and BAR2_WRITE
(spec/05_launch.md R128, R135, R136, spec/23_retirement_and_recovery.md R447, R456).
-/
namespace Sys2Proof.Machine

/-! The halt (R379). -/

/-- A core of the clusters of a partition is in hand-over (R420). -/
def State.handing (s : State) (cls : List Nat) : Bool := cls.any fun c => (s.cluster c).leasedCore.isSome

/-- The cores of a cluster. -/
def clusterCores (cl : Nat) : List Nat := (List.range 8).map fun k => 8 * cl + k

/-- A cluster halts: its slots park at their next turns, its engines stop at a boundary. -/
def State.haltCluster (s : State) (cl : Nat) : State :=
  let s := s.modCluster cl fun x => { x with halted := true, cpHalted := true }
  (clusterCores cl).foldl (fun s k => s.modCore k fun c => { c with mx := { c.mx with halted := true } }) s

/-- The mark of a HALT or a GO that was written while a core was in hand-over, and waits with what was written. -/
def swapWaits : Nat := 3

/-- SWAPCTL_HALT: OUT halts; a core hand-over ends first (R379, R420), and the halt waits for it with its OUT. -/
def execSwapctlHalt (s : State) : Host.Outcome State Fault Refusal :=
  let v := if s.arg.who = swapWaits then s.arg.what else s.pf.out.toNat
  let cls := (s.part v).clusterList
  if v = 0 ∨ !(s.part v).enable then .next s
  else if s.handing cls then .next (s.post 64 .swapctlHalt swapWaits v)
  else
    let s := cls.foldl State.haltCluster s
    .next ({ s with pf := { s.pf with drained := s.pf.drained.filter (· != v), halting := s.pf.halting ++ [v] } }.postOnce 16 .haltDrained v)

/-- A cluster's copy engine has stopped: no unit and no acknowledgement is to come. -/
def State.engineStopped (s : State) (cl : Nat) : Bool :=
  (s.agenda.all fun d => !((decide (d.ev = .cpUnit) && d.arg.who / 4 == cl) || (decide (d.ev = .gmmaPartDone) && d.arg.who == cl)))
    && (s.cluster cl).lanes.all fun l => l.2.cmd.isNone || l.2.waiting != 1

/-- A halted cluster has drained (R379). -/
def State.clusterDrained (s : State) (cl : Nat) : Bool :=
  s.engineStopped cl && (clusterCores cl).all fun k => s.coreDrained k && !(s.core k).leaseHold

/-- HALT_DRAINED: the drain of a partition is looked at every 16 cycles; once it is complete, DRAINED reads 1 while OUT names the
partition (R378, R379). -/
def execHaltDrained (s : State) : Host.Outcome State Fault Refusal :=
  let v := s.arg.who
  if !s.pf.halting.contains v then .next s
  else if (s.part v).clusterList.all fun c => s.clusterDrained c then
    .next { s with pf := { s.pf with drained := s.pf.drained ++ [v], halting := s.pf.halting.filter (· != v) } }
  else .next (s.post 16 .haltDrained v)

/-! The exchange (R380). -/

/-- A cell of a cluster's local memory. -/
def inSlab (cl : Nat) (c : Host.Cell) : Bool := decide (slabPlace (8 * cl) 0 ≤ c.1) && decide (c.1 < slabPlace (8 * cl + 8) 0)

/-- A poison mark of a cluster's local memory or accumulators (R411). -/
def poisonIn (cl p : Nat) : Bool :=
  (decide (slabPlace (8 * cl) 0 ≤ 64 * p) && decide (64 * p < slabPlace (8 * cl + 8) 0))
    || (decide (2 ^ 58 + 8 * cl * 16384 ≤ p) && decide (p < 2 ^ 58 + (8 * cl + 8) * 16384))

/-- What of a core passes to shadow storage is empty. -/
def Core.emptied (k : Core) : Core :=
  { k with
    slots := [], ready := [], deque := [], inbox := [], arrivals := [], thief := ⟨0, none, 0, 256, none⟩
    mx := MatrixUnit.initial }

/-- What of a core comes back from shadow storage. -/
def Core.refilled (k saved : Core) : Core :=
  { k with
    slots := saved.slots, ready := saved.ready, deque := saved.deque, inbox := saved.inbox ++ k.inbox, arrivals := saved.arrivals
    thief := ⟨saved.thief.next, none, 0, 256, none⟩, mx := { saved.mx with halted := false } }

/-- The contexts at a cluster whose partition is in service there. -/
def State.liveCtxs (s : State) (cl : Nat) : List Nat :=
  (s.ctxs.filter fun x => clusterOf (x.2.at x.1) == cl && decide (x.2.st ≠ .free) && !s.swappedOut x.1).map (·.1)

/-- A cluster's state passes to shadow storage, and the contexts in it become Swapped; Cached and Spilled ones stay so (R148, R380). -/
def State.swapOut (s : State) (v cl : Nat) : State :=
  let x := s.cluster cl
  let ks := clusterCores cl
  let gs := s.liveCtxs cl
  let sh : Shadow :=
    ⟨v, ks.map fun k => (k, s.core k), s.mem.filter (inSlab cl), s.poison.filter (poisonIn cl), x.cpQueue, x.lanes, x.gmmaQ, x.gmmaRun, gs⟩
  let s := gs.foldl (fun s g => s.modCtx g fun c =>
    if c.st = .cached ∨ c.st = .spilled then c else { c with st := .swapped }) s
  let s := ks.foldl (fun s k => s.modCore k Core.emptied) s
  let s := { s with mem := s.mem.filter fun c => !inSlab cl c, poison := s.poison.filter fun p => !poisonIn cl p }
  s.modCluster cl fun x =>
    { x with
      shadow := x.shadow ++ [sh]
      cpQueue := []
      lanes := []
      gmmaQ := []
      gmmaRun := none
      halted := false
      cpHalted := false }

/-- A context that returns from shadow storage: Swapped ones take the state they left, displaced ones whose event came become Ready,
and a kill that waited is taken (R102, R148, R381). -/
def State.returnCtx (s : State) (g : Nat) : State :=
  let c := s.ctx g
  let s :=
    match c.st with
    | .swapped => s.setCtx g { c with st := if c.slot.isSome then .parked else .ready }
    | .cached | .spilled => if c.arrived then s.makeReady g rankWoken else s
    | _ => s
  if c.async.any Cause.fatal then s.post 0 .asyncCauseTaken g else s

/-- A copy engine goes on from the units at which it stopped (R272, R380). -/
def State.startEngine (s : State) (cl : Nat) : State :=
  let s := (s.cluster cl).lanes.foldl (fun s l =>
    if l.2.cmd.isSome ∧ l.2.waiting = 0 then s.post 2 .cpUnit (4 * cl + l.1) else s) s
  (s.postOnce 1 .cpLaneStart cl).postOnce 1 .gmmaAdmit (cl / 2 * 2)

/-- Promotions of the contexts of a ready queue are looked for again (R160). -/
def State.postPromotions (s : State) (core : Nat) : State :=
  (s.core core).ready.foldl (fun s e =>
    s.post (e.since + 256 * (s.ctx e.gid).tquant.toNat - s.cycle) .readyPromotion core e.gid) s

/-- A cluster's state comes back from shadow storage; every L1 cache is invalidated before a context issues (R380). -/
def State.swapIn (s : State) (v cl : Nat) : State :=
  match (s.cluster cl).shadow.find? fun x => x.vf == v with
  | none => s
  | some sh =>
    let s := s.modCluster cl fun x =>
      { x with
        shadow := x.shadow.filter fun y => y.vf != v
        cpQueue := sh.cpQ
        lanes := sh.lanes
        gmmaQ := sh.gmmaQ
        gmmaRun := sh.gmmaRun
        halted := false
        cpHalted := false }
    let s := sh.cores.foldl (fun s k => s.modCore k.1 fun c => c.refilled k.2) s
    let s := { s.putCells sh.slab with poison := s.poison ++ sh.poison }
    let s := sh.ctxs.foldl State.returnCtx s
    (clusterCores cl).foldl (fun s k => ((s.startCore k).postPromotions k).grantAllMatrix k 32) ((s.startEngine cl).grantAllCopy cl 64)

/-- The shadow storage of a partition's clusters, 3 MiB each, holds the state of a partition that the exchange does not bring back, so
that OUT's 2.9 MiB find no room (R1, R380). -/
def State.shadowFull (s : State) (o i : Nat) : Bool :=
  (s.part o).clusterList.any fun c => (s.cluster c).shadow.any fun x => x.vf != i

/-- A GO has no effect (R378). One whose OUT finds the shadow storage taken has none either. DESIGN CHOICE, notes/assumptions/66.md. -/
def State.goRefused (s : State) (o i : Nat) : Bool :=
  (o != 0 && !s.pf.drained.contains o) || (o != 0 && s.shadowFull o i)
    || (o != 0 && i != 0 && (s.part o).clusters != (s.part i).clusters)
    || (i != 0 && !(s.part i).inShadow)
    || (o == 0 && i != 0 && (s.part i).clusterList.any fun c => (s.partOfCluster c).isSome)

/-- Every phase of a cluster's banks passes to shadow grants until the exchange ends (R240, R380). -/
def State.shadowPhases (s : State) (cl ends : Nat) : State :=
  (clusterCores cl).foldl (fun s k => (List.range 8).foldl (fun s b => s.modCore k fun x => x.modBank b fun q => { q with nextAt := ends }) s) s

/-- The exchange of OUT and IN starts, unless a core is in hand-over, whose end the GO awaits (R380, R420). -/
def State.exchange (s : State) (o i : Nat) : State :=
  let cls := (s.part (if o = 0 then i else o)).clusterList
  if s.handing cls then s.post 64 .swapctlGo swapWaits o i
  else
    let t := s.freeRange 1 7200
    (cls.foldl (fun s c => s.shadowPhases c (s.cycle + t.1)) t.2).post t.1 .swapExchangeDone o i

/-- SWAPCTL_GO: DONE falls, and the exchange of OUT and IN starts, within 7,200 cycles (R378, R380); a core hand-over ends first (R420), and
the GO waits for it with its OUT and IN. -/
def execSwapctlGo (s : State) : Host.Outcome State Fault Refusal :=
  if s.arg.who = swapWaits then .next (s.exchange s.arg.what s.arg.val)
  else
    let o := s.pf.out.toNat
    let i := s.pf.inn.toNat
    if !s.pf.done then .next s
    else if s.goRefused o i then .next (s.countErr 0)
    else .next ({ s with pf := { s.pf with done := false } }.exchange o i)

/-- SWAP_EXCHANGE_DONE: the live state and the shadow storage are exchanged on every cluster, ENABLE moves from OUT to IN, and IN's
halted slots resume; the Assay looks at the leases that waited (R380, R420). DESIGN CHOICE, notes/assumptions/45.md. -/
def execSwapExchangeDone (s : State) : Host.Outcome State Fault Refusal :=
  let o := s.arg.who
  let i := s.arg.what
  if s.pf.done then .next s
  else
    let cls := (s.part (if o = 0 then i else o)).clusterList
    let s := if o = 0 then s else (cls.foldl (fun s c => s.swapOut o c) s).modPart o fun p => { p with enable := false, inShadow := true }
    let s := if i = 0 then s else s.modPart i fun p => { p with enable := true, inShadow := false }
    let s := if i = 0 then s else cls.foldl (fun s c => s.swapIn i c) s
    let s := { s with pf := { s.pf with done := true, drained := s.pf.drained.filter (· != o) } }
    .next ((((s.postOnce 8 .dispatcherTake 0).postOnce 8 .dispatcherTake 1).postOnce 1 .leaseStart 0 2).kickPlacing)

/-! The aperture (R136). -/

/-- The device address of an aperture offset; none with EN = 0 or an illegal BASE. -/
def Func.aperture (f : Func) (x : Nat) : Option Word :=
  let b := f.apBase.toNat
  if f.apEn ∧ b / 2 ^ 20 = 0 ∧ b / 2 ^ 10 % 2 ^ 10 = Config.moduleNumber ∧ x < 2 ^ 36 then some (word (b * 2 ^ 36 + x)) else none

/-- The places of a host access, byte by byte, or its failure: page rights, a matching host range, and, for a write, no typed
sector. DEDUCED, notes/assumptions/49.md. -/
def State.hostPlaces (s : State) (v : Nat) (a : Word) (n : Nat) (write : Bool) : Option (List Nat) :=
  (List.range n).mapM fun i =>
    let b := a + word i
    let p := s.placeOf b
    let need := if write then 2 else 1
    if Rights.cover (s.hostRights v b) need && s.pageGrants (bits b 45 45) (s.entryOf (bits b 45 45) (bits b 44 0)) need
        && !(write && s.tag (p / 64) != 0) then some p else none

/-- The addresses of a host access's bytes. -/
def byteAddrs (a : Word) (n : Nat) : List Word := (List.range n).map fun i => a + word i

/-- A host access at its home slices passes L2 as an ordinary one does (R136, R246). -/
def State.hostPass (s : State) (a : Word) (n : Nat) (write : Bool) : State := s.passLines (byteAddrs a n) write

/-- A host write that arrived earlier still waits for a walk: id is the waiting one's own number, or 0 (R73, R135). -/
def State.hostWaits (s : State) (v id : Nat) : Bool :=
  s.agenda.any fun d => decide (d.ev = .bar4Write) && d.arg.who == v && decide (0 < d.arg.val) && (id == 0 || decide (d.arg.val < id))

/-- BAR4_WRITE: a host write through the aperture: the bytes at their home, or dropped and counted (R136). One whose page must be walked
for comes back under a number of its own as val, in the order of arrival. A write with the Relaxed Ordering attribute, which R305 leaves
unordered, keeps the order of the others. DESIGN CHOICE, notes/assumptions/76.md. -/
def execBar4Write (s : State) : Host.Outcome State Fault Refusal :=
  let v := s.arg.who
  match s.arg.ext with
  | .bytes d _ =>
    match (s.func v).aperture s.arg.what with
    | none => .next (s.countErr v)
    | some a =>
      match s.lookUp (byteAddrs a d.length) with
      | (seen, t) =>
        if !seen || s.hostWaits v s.arg.val then
          let n := t.fresh
          .next (n.2.post 16 .bar4Write v s.arg.what (if s.arg.val = 0 then n.1 + 1 else s.arg.val) s.arg.ext)
        else
          match t.hostPlaces v a d.length true with
          | none => .next (t.countErr v)
          | some ps => .next ((t.hostPass a d.length true).writePlaces (ps.zip d))
  | _ => .next s

/-- A host read completes with bytes, poisoned or not. -/
def State.hostAnswer (s : State) (d : List Byte) (poisoned : Bool) : State := { s with hostReads := (d, poisoned) :: s.hostReads }

/-- BAR4_READ: a host read of val bytes through the aperture; a failure gives all ones and counts (R136, R411). It comes after the
function's earlier writes, and waits for a walk of its page. -/
def execBar4Read (s : State) : Host.Outcome State Fault Refusal :=
  let v := s.arg.who
  let ones := List.replicate s.arg.val (255 : Byte)
  match (s.func v).aperture s.arg.what with
  | none => .next ((s.countErr v).hostAnswer ones false)
  | some a =>
    match s.lookUp (byteAddrs a s.arg.val) with
    | (seen, t) =>
      if !seen || s.hostWrites v then .next (t.post 16 .bar4Read v s.arg.what s.arg.val)
      else
        match t.hostPlaces v a s.arg.val false with
        | none => .next ((t.countErr v).hostAnswer ones false)
        | some ps =>
          if ps.any fun p => s.poison.contains (p / 64) then .next (((t.hostPass a s.arg.val false).countErr v).hostAnswer ones true)
          else .next ((t.hostPass a s.arg.val false).hostAnswer (ps.map fun p => memGet s.mem p) false)

/-! The function control page (R128, R129, R136, R378, R432, R445, R455). -/

/-- SWAPCTL as it reads; HALT and GO read 0. -/
def PfRegs.swapctl (p : PfRegs) : Nat :=
  p.out.toNat + 2 ^ 7 * p.inn.toNat + 2 ^ 18 * (p.drained.contains p.out.toNat).toNat + 2 ^ 19 * p.done.toNat

/-- A word of a function's control page: its own registers, and on the PF's page the PF's, the descriptors and the die registers. -/
def State.controlWord (s : State) (v off : Nat) : Word :=
  let f := s.func v
  if off = 0 then word (f.apEn.toNat + 2 ^ 36 * f.apBase.toNat)
  else if off = 8 then f.errcnt.setWidth 64
  else if v ≠ 0 then 0
  else if off = 0x10 then word s.pf.swapctl
  else if off = 0x18 then word s.pf.nouv.toNat
  else if off = 0x30 then s.pf.clkcap.setWidth 64
  else if 0x100 ≤ off ∧ off < 0x4100 then (s.part (off / 0x100)).wordAt (off % 0x100 / 8)
  else if 0x8000 ≤ off ∧ off < 0xA000 then (s.censusWord ((off - 0x8000) / 0x1000) (off % 0x1000)).getD 0
  else 0

/-- n bytes of BAR0: a function's control page above the request slots, which read as zero (R128). -/
def State.bar0Bytes (s : State) (v x n : Nat) : List Byte :=
  (List.range n).map fun i =>
    let o := x + i
    if o < 0x3FF0000 then 0 else (s.controlWord v ((o - 0x3FF0000) / 8 * 8)).extractLsb' (8 * (o % 8)) 8

/-! The census window (R128, R447, R456). -/

/-- A census offset of a die, live or of a snapshot, that a function may read: the PF all of them, a VF the areas of its own partition, a
core's page while, or as, its partition is in service there (R447, R456). -/
def State.censusVisible (s : State) (v die off : Nat) (snap : Bool) : Bool :=
  if v = 0 then true
  else if off < 0x10000 then [0x08, 0x40, 0x48].contains (off / 8 * 8)
  else if 0x100000 ≤ off ∧ off < 0x100000 + 0x10000 * 576 then
    s.censusOwner v (64 * die + (off - 0x100000) / 0x10000 / 9) snap
  else if 0x4000000 ≤ off ∧ off < 0x4000000 + 0x40000 * 160 then true
  else if 0x7000000 ≤ off ∧ off < 0x7800000 then true
  else die == 0 && (off / 8 == 0x7800000 / 8
    || (decide (0x7801000 + 64 * (v - 1) ≤ off) && decide (off < 0x7801000 + 64 * v)))

/-- A byte of the census that only its owner may see: one that the areas do not give reads as zero to a VF (R456). -/
def State.windowByte (s : State) (v die off : Nat) : Byte × State :=
  let o := off % 2 ^ 27
  let t := if off < 2 ^ 27 then s else s.asSnapshot die
  if v ≠ 0 ∧ !(decide (0x100000 ≤ o) && decide (o < 0x100000 + 0x10000 * 576)) then ((t.censusShows v die o).getD 0, s)
  else s.censusByte v die off

/-- n bytes of the census window from an offset of the BAR. -/
def State.windowRead (s : State) (v x : Nat) : Nat → List Byte × State
  | 0 => ([], s)
  | n + 1 =>
    let die := x / 2 ^ 27 % 2
    let off := x % 2 ^ 27
    let snap := x / 2 ^ 28 % 2
    let b := if s.censusVisible v die off (snap == 1) then s.windowByte v die (off + 2 ^ 27 * snap) else (0, s)
    let r := b.2.windowRead v (x + 1) n
    (b.1 :: r.1, r.2)

/-- BAR2_READ: a host read of val bytes of the census, which changes no state of the device (R447, R456), or of BAR0 (R128).
DESIGN CHOICE, notes/assumptions/71.md. -/
def execBar2Read (s : State) : Host.Outcome State Fault Refusal :=
  match s.arg.ext with
  | .bar0 => .next (s.hostAnswer (s.bar0Bytes s.arg.who s.arg.what s.arg.val) false)
  | _ =>
    let r := s.windowRead s.arg.who s.arg.what s.arg.val
    .next (r.2.hostAnswer r.1 false)

/-- BAR2_WRITE: dropped and counted (R128). -/
def execBar2Write (s : State) : Host.Outcome State Fault Refusal := .next (s.countErr s.arg.who)

end Sys2Proof.Machine
end

