-- ==== Sys2Proof/Machine/Boot.lean ====
section
/-!
DEFINITION. Secure boot, attestation and the clock: SECURE_BOOT, ATTESTATION_REQUEST and CLOCK_STEP
(spec/23_retirement_and_recovery.md R452 to R455).
-/
namespace Sys2Proof.Machine

/-! Boot (R452, R453). -/

/-- SECURE_BOOT: the ROM of a die verifies the firmware under both signatures and refuses an image older than the fuses; one that is
newer blows them. A refused image is not started, and BOOTFAIL is reported through MCTP. -/
def execSecureBoot (s : State) : Host.Outcome State Fault Refusal :=
  let die := s.arg.who
  let v := Config.bootVersion die
  if (s.die die).booted ∨ (s.die die).bootFail then .next s
  else if Config.bootVerifies die && decide (s.assay.fuses ≤ v) then
    let s := { s with assay := { s.assay with fuses := Nat.min 128 (Nat.max s.assay.fuses v) } }
    .next (s.modDie die fun d => { d with booted := true })
  else .next { s.modDie die (fun d => { d with bootFail := true }) with mctp := .bootFail die :: s.mctp }

/-! Attestation (R454). -/

/-- The bytes of the partition descriptors of VF1 to VF64. -/
def State.descriptorBytes (s : State) : List Byte :=
  (List.range 64).flatMap fun v => (List.range 32).flatMap fun k => bytesOfNat 8 ((s.part (v + 1)).wordAt k).toNat

/-- The attestation report for a nonce: the nonce, the digests, the security version, every partition descriptor and the lease
summary, in this order. DESIGN CHOICE, notes/assumptions/6.md. -/
def State.reportBytes (s : State) (nonce : List Byte) : List Byte :=
  let a := s.assay
  nonce ++ ([0, 1, 2].flatMap fun i => bytesOfNat 48 (Config.firmwareDigest i)) ++ bytesOfNat 8 a.fuses ++ s.descriptorBytes
    ++ (a.leaseCounts.flatMap fun n => bytesOfNat 8 n) ++ bytesOfNat 8 a.retired.length ++ bytesOfNat 8 (a.retired.length - 1)

/-- ATTESTATION_REQUEST: a PLDM request with a nonce of 32 bytes yields a report under both signatures (R454), which the service firmware
of a die that runs it makes: with the firmware of both refused, there is none (R452; notes/assumptions/72.md). -/
def execAttestationRequest (s : State) : Host.Outcome State Fault Refusal :=
  match s.arg.ext with
  | .bytes nonce _ =>
    if nonce.length ≠ 32 ∨ !s.assayRuns then .next s
    else
      let r := s.reportBytes nonce
      let d := Config.sha384 r
      let signed := [Config.sign 0 d, Config.sign 1 d]
      .next { s with assay := { s.assay with report := r, signed := signed }, mctp := .attestation r signed :: s.mctp }
  | _ => .next s

/-! The clock (R455). -/

/-- The timebase counts on from the present cycle at another clock, with the same part of a tick begun (R146, R455). -/
def State.rebase (s : State) (mhz die : Nat) : State := s.setTime die (s.time die) (s.timeRest die * mhz / s.mhz)

/-- The steps that end a period which the spec gives as a time (R359, R420, R430, R432, R450). -/
def periodEvents : List Instr := [.timeFlitSend, .hbeatTick, .voltageLower, .scoreTick, .leaseStart, .testEnd]

/-- A step that ends a period moves with the clock: what is left of the period takes as many cycles as it takes at the new one (R455). -/
def Due.reClock (now old new_ : Nat) (d : Due) : Due :=
  if periodEvents.contains d.ev then { d with at_ := now + ((d.at_ - now) * new_ + old - 1) / old } else d

/-- The clock set to a number of 50 MHz steps below 1.8 GHz, in the same cycle in every unit; everything that waits for a time is looked
at again. -/
def State.setClock (s : State) (steps : Nat) : State :=
  let mhz := 1800 - 50 * steps
  let t := (s.rebase mhz 0).rebase mhz 1
  let t :=
    { t with
      agenda := t.agenda.map (Due.reClock s.cycle s.mhz mhz)
      assay := { t.assay with clock := steps, clockAt := s.cycle, nanoAt := s.nanos } }
  (t.reDeadline 0).reDeadline 1

/-- CLOCK_STEP: the governor lowers the clock by 50 MHz (val = 1), to no less than 1.2 GHz, or raises it (2), to no more than
CLKCAP allows; a new CLKCAP brings it down step by step (0) (R455). DEDUCED, notes/assumptions/50.md. -/
def execClockStep (s : State) : Host.Outcome State Fault Refusal :=
  let now := s.assay.clock
  let cap := s.pf.clkcap.toNat
  if s.arg.val = 1 then .next (if now < 12 then s.setClock (now + 1) else s)
  else if s.arg.val = 2 then .next (if cap < now then s.setClock (now - 1) else s)
  else if now < cap then .next ((s.setClock (now + 1)).post 1 .clockStep 0)
  else .next s

end Sys2Proof.Machine
end

