-- ==== Sys2Proof/Machine/Dispatch.lean ====
section
/-!
DEFINITION. The meaning of every instruction and step, one arm per constructor.
-/
namespace Sys2Proof.Machine

/-- The effect of one instruction or step on the state. -/
def exec (i : Instr) (s : State) : Host.Outcome State Fault Refusal :=
  match i with
  | .nopc => Sys2Proof.Machine.execNopc s
  | .beq a b off => Sys2Proof.Machine.execBeq a b off s
  | .bne a b off => Sys2Proof.Machine.execBne a b off s
  | .blt a b off => Sys2Proof.Machine.execBlt a b off s
  | .bge a b off => Sys2Proof.Machine.execBge a b off s
  | .bltu a b off => Sys2Proof.Machine.execBltu a b off s
  | .bgeu a b off => Sys2Proof.Machine.execBgeu a b off s
  | .loop a b off => Sys2Proof.Machine.execLoop a b off s
  | .jmp off => Sys2Proof.Machine.execJmp off s
  | .call off => Sys2Proof.Machine.execCall off s
  | .jr a imm => Sys2Proof.Machine.execJr a imm s
  | .callr a imm => Sys2Proof.Machine.execCallr a imm s
  | .ldb o => Sys2Proof.Machine.execLdb o s
  | .ldbu o => Sys2Proof.Machine.execLdbu o s
  | .ldh o => Sys2Proof.Machine.execLdh o s
  | .ldhu o => Sys2Proof.Machine.execLdhu o s
  | .ldw o => Sys2Proof.Machine.execLdw o s
  | .ldwu o => Sys2Proof.Machine.execLdwu o s
  | .ldd o => Sys2Proof.Machine.execLdd o s
  | .lda o => Sys2Proof.Machine.execLda o s
  | .stb o => Sys2Proof.Machine.execStb o s
  | .sth o => Sys2Proof.Machine.execSth o s
  | .stw o => Sys2Proof.Machine.execStw o s
  | .std o => Sys2Proof.Machine.execStd o s
  | .stl o => Sys2Proof.Machine.execStl o s
  | .fence sc zext => Sys2Proof.Machine.execFence sc zext s
  | .l1inv dat ins form => Sys2Proof.Machine.execL1inv dat ins form s
  | .vld o => Sys2Proof.Machine.execVld o s
  | .vst o => Sys2Proof.Machine.execVst o s
  | .vlds o => Sys2Proof.Machine.execVlds o s
  | .vsts o => Sys2Proof.Machine.execVsts o s
  | .gld o => Sys2Proof.Machine.execGld o s
  | .gst o => Sys2Proof.Machine.execGst o s
  | .oinit o => Sys2Proof.Machine.execOinit o s
  | .ofree o => Sys2Proof.Machine.execOfree o s
  | .oread o => Sys2Proof.Machine.execOread o s
  | .cadd o => Sys2Proof.Machine.execCadd o s
  | .cwait o => Sys2Proof.Machine.execCwait o s
  | .cset o => Sys2Proof.Machine.execCset o s
  | .barr o => Sys2Proof.Machine.execBarr o s
  | .bwait o => Sys2Proof.Machine.execBwait o s
  | .barw o => Sys2Proof.Machine.execBarw o s
  | .ltake o => Sys2Proof.Machine.execLtake o s
  | .lgive o => Sys2Proof.Machine.execLgive o s
  | .qput o => Sys2Proof.Machine.execQput o s
  | .qget o => Sys2Proof.Machine.execQget o s
  | .kwait o => Sys2Proof.Machine.execKwait o s
  | .ksig o => Sys2Proof.Machine.execKsig o s
  | .kall o => Sys2Proof.Machine.execKall o s
  | .feget o => Sys2Proof.Machine.execFeget o s
  | .feput o => Sys2Proof.Machine.execFeput o s
  | .fepeek o => Sys2Proof.Machine.execFepeek o s
  | .aadd o => Sys2Proof.Machine.execAadd o s
  | .aswap o => Sys2Proof.Machine.execAswap o s
  | .acas o => Sys2Proof.Machine.execAcas o s
  | .amax o => Sys2Proof.Machine.execAmax o s
  | .amin o => Sys2Proof.Machine.execAmin o s
  | .aand o => Sys2Proof.Machine.execAand o s
  | .aor o => Sys2Proof.Machine.execAor o s
  | .axor o => Sys2Proof.Machine.execAxor o s
  | .bkadd o => Sys2Proof.Machine.execBkadd o s
  | .bkmax o => Sys2Proof.Machine.execBkmax o s
  | .bkscl o => Sys2Proof.Machine.execBkscl o s
  | .bkfma o => Sys2Proof.Machine.execBkfma o s
  | .bksmx o => Sys2Proof.Machine.execBksmx o s
  | .bkcvt o => Sys2Proof.Machine.execBkcvt o s
  | .bkfill o => Sys2Proof.Machine.execBkfill o s
  | .bkred o => Sys2Proof.Machine.execBkred o s
  | .mxc d a => Sys2Proof.Machine.execMxc d a s
  | .cpc d a => Sys2Proof.Machine.execCpc d a s
  | .estat d cp clr => Sys2Proof.Machine.execEstat d cp clr s
  | .spawn d a b => Sys2Proof.Machine.execSpawn d a b s
  | .fork d a b => Sys2Proof.Machine.execFork d a b s
  | .quit => Sys2Proof.Machine.execQuit s
  | .yield => Sys2Proof.Machine.execYield s
  | .send d a b ovr nw => Sys2Proof.Machine.execSend d a b ovr nw s
  | .recv d a tag nw => Sys2Proof.Machine.execRecv d a tag nw s
  | .arrMatch d a b wake => Sys2Proof.Machine.execArrMatch d a b wake s
  | .waitt d a b => Sys2Proof.Machine.execWaitt d a b s
  | .mfc d num => Sys2Proof.Machine.execMfc d num s
  | .mtc num a => Sys2Proof.Machine.execMtc num a s
  | .trap imm => Sys2Proof.Machine.execTrap imm s
  | .rft skip => Sys2Proof.Machine.execRft skip s
  | .kill d a dom nw => Sys2Proof.Machine.execKill d a dom nw s
  | .halt => Sys2Proof.Machine.execHalt s
  | .plbw d a b => Sys2Proof.Machine.execPlbw d a b s
  | .nopa => Sys2Proof.Machine.execNopa s
  | .add w32 d a b => Sys2Proof.Machine.execAdd w32 d a b s
  | .sub w32 d a b => Sys2Proof.Machine.execSub w32 d a b s
  | .and d a b => Sys2Proof.Machine.execAnd d a b s
  | .or d a b => Sys2Proof.Machine.execOr d a b s
  | .xor d a b => Sys2Proof.Machine.execXor d a b s
  | .andn d a b => Sys2Proof.Machine.execAndn d a b s
  | .shl d a b => Sys2Proof.Machine.execShl d a b s
  | .shr d a b => Sys2Proof.Machine.execShr d a b s
  | .sra d a b => Sys2Proof.Machine.execSra d a b s
  | .mul w32 d a b => Sys2Proof.Machine.execMul w32 d a b s
  | .mulh d a b => Sys2Proof.Machine.execMulh d a b s
  | .mulhu d a b => Sys2Proof.Machine.execMulhu d a b s
  | .div w32 d a b => Sys2Proof.Machine.execDiv w32 d a b s
  | .divu w32 d a b => Sys2Proof.Machine.execDivu w32 d a b s
  | .rem w32 d a b => Sys2Proof.Machine.execRem w32 d a b s
  | .remu w32 d a b => Sys2Proof.Machine.execRemu w32 d a b s
  | .min d a b => Sys2Proof.Machine.execMin d a b s
  | .max d a b => Sys2Proof.Machine.execMax d a b s
  | .minu d a b => Sys2Proof.Machine.execMinu d a b s
  | .maxu d a b => Sys2Proof.Machine.execMaxu d a b s
  | .cmpeq d a b => Sys2Proof.Machine.execCmpeq d a b s
  | .cmpne d a b => Sys2Proof.Machine.execCmpne d a b s
  | .cmplt d a b => Sys2Proof.Machine.execCmplt d a b s
  | .cmpltu d a b => Sys2Proof.Machine.execCmpltu d a b s
  | .cmple d a b => Sys2Proof.Machine.execCmple d a b s
  | .cmpleu d a b => Sys2Proof.Machine.execCmpleu d a b s
  | .sel d a b c => Sys2Proof.Machine.execSel d a b c s
  | .clz d a => Sys2Proof.Machine.execClz d a s
  | .ctz d a => Sys2Proof.Machine.execCtz d a s
  | .popc d a => Sys2Proof.Machine.execPopc d a s
  | .bfx d a b sg => Sys2Proof.Machine.execBfx d a b sg s
  | .bfi d a b => Sys2Proof.Machine.execBfi d a b s
  | .addi d a imm => Sys2Proof.Machine.execAddi d a imm s
  | .andi d a imm => Sys2Proof.Machine.execAndi d a imm s
  | .ori d a imm => Sys2Proof.Machine.execOri d a imm s
  | .xori d a imm => Sys2Proof.Machine.execXori d a imm s
  | .shli d a imm => Sys2Proof.Machine.execShli d a imm s
  | .shri d a imm => Sys2Proof.Machine.execShri d a imm s
  | .srai d a imm => Sys2Proof.Machine.execSrai d a imm s
  | .cmpeqi d a imm => Sys2Proof.Machine.execCmpeqi d a imm s
  | .cmplti d a imm => Sys2Proof.Machine.execCmplti d a imm s
  | .li d imm => Sys2Proof.Machine.execLi d imm s
  | .lui d imm => Sys2Proof.Machine.execLui d imm s
  | .fadd d a b => Sys2Proof.Machine.execFadd d a b s
  | .fsub d a b => Sys2Proof.Machine.execFsub d a b s
  | .fmul d a b => Sys2Proof.Machine.execFmul d a b s
  | .ffma d a b c => Sys2Proof.Machine.execFfma d a b c s
  | .fmin d a b => Sys2Proof.Machine.execFmin d a b s
  | .fmax d a b => Sys2Proof.Machine.execFmax d a b s
  | .fdiv d a b => Sys2Proof.Machine.execFdiv d a b s
  | .fsqrt d a => Sys2Proof.Machine.execFsqrt d a s
  | .fcmp d a b p => Sys2Proof.Machine.execFcmp d a b p s
  | .fcvt d a k rm sat => Sys2Proof.Machine.execFcvt d a k rm sat s
  | .fclass d a => Sys2Proof.Machine.execFclass d a s
  | .vadd o => Sys2Proof.Machine.execVadd o s
  | .vsub o => Sys2Proof.Machine.execVsub o s
  | .vmul o => Sys2Proof.Machine.execVmul o s
  | .vfma o => Sys2Proof.Machine.execVfma o s
  | .vmin o => Sys2Proof.Machine.execVmin o s
  | .vmax o => Sys2Proof.Machine.execVmax o s
  | .vabs o => Sys2Proof.Machine.execVabs o s
  | .vand o => Sys2Proof.Machine.execVand o s
  | .vor o => Sys2Proof.Machine.execVor o s
  | .vxor o => Sys2Proof.Machine.execVxor o s
  | .vshl o => Sys2Proof.Machine.execVshl o s
  | .vshr o => Sys2Proof.Machine.execVshr o s
  | .vcmp o => Sys2Proof.Machine.execVcmp o s
  | .vsel o => Sys2Proof.Machine.execVsel o s
  | .vbcast o => Sys2Proof.Machine.execVbcast o s
  | .vins o => Sys2Proof.Machine.execVins o s
  | .vext o => Sys2Proof.Machine.execVext o s
  | .vredadd o => Sys2Proof.Machine.execVredadd o s
  | .vredmax o => Sys2Proof.Machine.execVredmax o s
  | .vperm o => Sys2Proof.Machine.execVperm o s
  | .vcvt o => Sys2Proof.Machine.execVcvt o s
  | .vexp2 o => Sys2Proof.Machine.execVexp2 o s
  | .vrcp o => Sys2Proof.Machine.execVrcp o s
  | .vdot4 o => Sys2Proof.Machine.execVdot4 o s
  | .vaddsub o => Sys2Proof.Machine.execVaddsub o s
  | .mop o => Sys2Proof.Machine.execMop o s
  | .unpk3 o => Sys2Proof.Machine.execUnpk3 o s
  | .unpk4 o => Sys2Proof.Machine.execUnpk4 o s
  | .unpki3 o => Sys2Proof.Machine.execUnpki3 o s
  | .gadd gd ga gb sub => Sys2Proof.Machine.execGadd gd ga gb sub s
  | .gext gd ga gb => Sys2Proof.Machine.execGext gd ga gb s
  | .gelim gd ga keep => Sys2Proof.Machine.execGelim gd ga keep s
  | .gdamp gd ga gb => Sys2Proof.Machine.execGdamp gd ga gb s
  | .gres r ga gb => Sys2Proof.Machine.execGres r ga gb s
  | .gmean gd ga => Sys2Proof.Machine.execGmean gd ga s
  | .escalationLogged => Sys2Proof.Machine.execEscalationLogged s
  | .asyncCauseTaken => Sys2Proof.Machine.execAsyncCauseTaken s
  | .fetch => Sys2Proof.Machine.execFetch s
  | .icacheFill => Sys2Proof.Machine.execIcacheFill s
  | .parkResume => Sys2Proof.Machine.execParkResume s
  | .resultReturn => Sys2Proof.Machine.execResultReturn s
  | .loadDataReturn => Sys2Proof.Machine.execLoadDataReturn s
  | .storeAck => Sys2Proof.Machine.execStoreAck s
  | .accessAccepted => Sys2Proof.Machine.execAccessAccepted s
  | .probeEcho => Sys2Proof.Machine.execProbeEcho s
  | .bankGrant => Sys2Proof.Machine.execBankGrant s
  | .sliceDataServe => Sys2Proof.Machine.execSliceDataServe s
  | .l1Fill => Sys2Proof.Machine.execL1Fill s
  | .l2Fill => Sys2Proof.Machine.execL2Fill s
  | .hbmChannelServe => Sys2Proof.Machine.execHbmChannelServe s
  | .walkComplete => Sys2Proof.Machine.execWalkComplete s
  | .tlbinvWrite => Sys2Proof.Machine.execTlbinvWrite s
  | .tlbinvDone => Sys2Proof.Machine.execTlbinvDone s
  | .rdclenWrite => Sys2Proof.Machine.execRdclenWrite s
  | .rdcRemovalDone => Sys2Proof.Machine.execRdcRemovalDone s
  | .domgenWrite => Sys2Proof.Machine.execDomgenWrite s
  | .domgenDone => Sys2Proof.Machine.execDomgenDone s
  | .snapctlGo => Sys2Proof.Machine.execSnapctlGo s
  | .snapshotDone => Sys2Proof.Machine.execSnapshotDone s
  | .timesetWrite => Sys2Proof.Machine.execTimesetWrite s
  | .registerWrite => Sys2Proof.Machine.execRegisterWrite s
  | .swapctlHalt => Sys2Proof.Machine.execSwapctlHalt s
  | .haltDrained => Sys2Proof.Machine.execHaltDrained s
  | .swapctlGo => Sys2Proof.Machine.execSwapctlGo s
  | .swapExchangeDone => Sys2Proof.Machine.execSwapExchangeDone s
  | .purge => Sys2Proof.Machine.execPurge s
  | .errcntClear => Sys2Proof.Machine.execErrcntClear s
  | .partitionEnable => Sys2Proof.Machine.execPartitionEnable s
  | .partitionDisable => Sys2Proof.Machine.execPartitionDisable s
  | .enableClearEffect => Sys2Proof.Machine.execEnableClearEffect s
  | .nouvWrite => Sys2Proof.Machine.execNouvWrite s
  | .resumeGo => Sys2Proof.Machine.execResumeGo s
  | .objectWindowRequest => Sys2Proof.Machine.execObjectWindowRequest s
  | .bar4Write => Sys2Proof.Machine.execBar4Write s
  | .bar4Read => Sys2Proof.Machine.execBar4Read s
  | .bar2Read => Sys2Proof.Machine.execBar2Read s
  | .bar2Write => Sys2Proof.Machine.execBar2Write s
  | .hostWindowCompletion => Sys2Proof.Machine.execHostWindowCompletion s
  | .attestationRequest => Sys2Proof.Machine.execAttestationRequest s
  | .secureBoot => Sys2Proof.Machine.execSecureBoot s
  | .clockStep => Sys2Proof.Machine.execClockStep s
  | .dispatcherTake => Sys2Proof.Machine.execDispatcherTake s
  | .packetVerify => Sys2Proof.Machine.execPacketVerify s
  | .depctrGrant => Sys2Proof.Machine.execDepctrGrant s
  | .depctrRetry => Sys2Proof.Machine.execDepctrRetry s
  | .notbeforeReached => Sys2Proof.Machine.execNotbeforeReached s
  | .placeContext => Sys2Proof.Machine.execPlaceContext s
  | .packetComplete => Sys2Proof.Machine.execPacketComplete s
  | .slotFill => Sys2Proof.Machine.execSlotFill s
  | .imageFetch => Sys2Proof.Machine.execImageFetch s
  | .displacement => Sys2Proof.Machine.execDisplacement s
  | .quantumPreempt => Sys2Proof.Machine.execQuantumPreempt s
  | .readyPromotion => Sys2Proof.Machine.execReadyPromotion s
  | .stealProbe => Sys2Proof.Machine.execStealProbe s
  | .stealProbeResult => Sys2Proof.Machine.execStealProbeResult s
  | .stealBackoffEnd => Sys2Proof.Machine.execStealBackoffEnd s
  | .wake => Sys2Proof.Machine.execWake s
  | .waittDeadline => Sys2Proof.Machine.execWaittDeadline s
  | .objectRequestArrival => Sys2Proof.Machine.execObjectRequestArrival s
  | .parentWake => Sys2Proof.Machine.execParentWake s
  | .objectReply => Sys2Proof.Machine.execObjectReply s
  | .spillRefill => Sys2Proof.Machine.execSpillRefill s
  | .switchCombine => Sys2Proof.Machine.execSwitchCombine s
  | .combinedReplySplit => Sys2Proof.Machine.execCombinedReplySplit s
  | .switchOutputGrant => Sys2Proof.Machine.execSwitchOutputGrant s
  | .watchdogExpiry => Sys2Proof.Machine.execWatchdogExpiry s
  | .messageArrival => Sys2Proof.Machine.execMessageArrival s
  | .messageRetry => Sys2Proof.Machine.execMessageRetry s
  | .sendAnswer => Sys2Proof.Machine.execSendAnswer s
  | .spawnAnswer => Sys2Proof.Machine.execSpawnAnswer s
  | .arrivalCount => Sys2Proof.Machine.execArrivalCount s
  | .quitComplete => Sys2Proof.Machine.execQuitComplete s
  | .cpLaneStart => Sys2Proof.Machine.execCpLaneStart s
  | .cpUnit => Sys2Proof.Machine.execCpUnit s
  | .cpWritesAcked => Sys2Proof.Machine.execCpWritesAcked s
  | .cpActionReply => Sys2Proof.Machine.execCpActionReply s
  | .mxCommandStart => Sys2Proof.Machine.execMxCommandStart s
  | .mxGroup => Sys2Proof.Machine.execMxGroup s
  | .mxWritesAcked => Sys2Proof.Machine.execMxWritesAcked s
  | .mxCtrReply => Sys2Proof.Machine.execMxCtrReply s
  | .gmmaAdmit => Sys2Proof.Machine.execGmmaAdmit s
  | .gmmaPartDone => Sys2Proof.Machine.execGmmaPartDone s
  | .accstDigestCompare => Sys2Proof.Machine.execAccstDigestCompare s
  | .twinCompare => Sys2Proof.Machine.execTwinCompare s
  | .twinRestoreDone => Sys2Proof.Machine.execTwinRestoreDone s
  | .checkpointCompare => Sys2Proof.Machine.execCheckpointCompare s
  | .registerRepair => Sys2Proof.Machine.execRegisterRepair s
  | .replayDone => Sys2Proof.Machine.execReplayDone s
  | .arrayError => Sys2Proof.Machine.execArrayError s
  | .voltageLower => Sys2Proof.Machine.execVoltageLower s
  | .linkFlitReceive => Sys2Proof.Machine.execLinkFlitReceive s
  | .nakReceive => Sys2Proof.Machine.execNakReceive s
  | .nakRepeat => Sys2Proof.Machine.execNakRepeat s
  | .ackTimer => Sys2Proof.Machine.execAckTimer s
  | .laneFailure => Sys2Proof.Machine.execLaneFailure s
  | .retrainDone => Sys2Proof.Machine.execRetrainDone s
  | .timeFlitSend => Sys2Proof.Machine.execTimeFlitSend s
  | .timeFlitReceive => Sys2Proof.Machine.execTimeFlitReceive s
  | .leaseStart => Sys2Proof.Machine.execLeaseStart s
  | .handoverDone => Sys2Proof.Machine.execHandoverDone s
  | .graceDeadline => Sys2Proof.Machine.execGraceDeadline s
  | .moveDone => Sys2Proof.Machine.execMoveDone s
  | .testEnd => Sys2Proof.Machine.execTestEnd s
  | .lineMove => Sys2Proof.Machine.execLineMove s
  | .portDrained => Sys2Proof.Machine.execPortDrained s
  | .scoreTick => Sys2Proof.Machine.execScoreTick s
  | .hbeatTick => Sys2Proof.Machine.execHbeatTick s
  | .killComplete => Sys2Proof.Machine.execKillComplete s
  | .illegalOp => Sys2Proof.Machine.execIllegalOp s
  | .spawnCreation => Sys2Proof.Machine.execSpawnCreation s
  | .inboxRefill => Sys2Proof.Machine.execInboxRefill s
  | .syncLoss => Sys2Proof.Machine.execSyncLoss s

end Sys2Proof.Machine
end

