-- ==== Sys2Proof/Machine/Turn.lean ====
section
/-!
DEFINITION. Which step comes next: the earliest entry of the agenda or turn of a Running context (R3, R178), and what a turn
presents to exec. The order of what falls in one cycle is the model's (notes/assumptions/3.md).
-/
namespace Sys2Proof.Machine

/-! The order of the events of one cycle. -/

/-- The input port of a slice at which a core's requests arrive, numbered as R348 lists the ports: the 64 clusters of its die, and the
bridge's 16 ports after the 32 of the remote-data cache (R247). DESIGN CHOICE, notes/assumptions/3.md. -/
def slicePort (sl core : Nat) : Nat :=
  if dieOfCore core = sl / Config.slices then clusterOf core % 64 else 96 + clusterOf core % 16

/-- The place of a core among those whose requests reach a bank in one cycle: the bank's own, its cluster's in ascending number, then
the network port (R241). -/
def bankPort (bank core : Nat) : Nat :=
  if core = bank then 0 else if clusterOf core = clusterOf bank then 1 + core % 8 else 9

/-- The place of a message among those that reach a core in one cycle: from its cluster's cores in ascending number, then the network
port, then its matrix unit and its copy engine (R339). -/
def messagePort (core : Nat) : NetBody → Nat
  | .user _ m _ _ =>
    let from_ := coreOf (bits m.w1 31 0)
    if clusterOf from_ = clusterOf core then from_ % 8 else 8
  | .posted _ m src =>
    if src = 0 ∨ src = 6 then 9 else if src = 1 ∨ src = 5 then 10
    else if src = 4 ∧ clusterOf (coreOf (bits m.w1 31 0)) = clusterOf core then coreOf (bits m.w1 31 0) % 8 else 8
  | _ => 8

/-- An event's place among those of its cycle: first what returns, then what arrives at a queue, in the order of the queue's ports
(R241, R247, R339), then new contexts (R157), then the fills and pops of slots' owners (R158, R167), then what a queue serves (R240,
R247, R328). Of one place, what was put on the agenda first comes first. A load that another slice forwards comes as if from its core's
port. DESIGN CHOICE, notes/assumptions/59.md. -/
def State.rank (s : State) (d : Due) : Nat × Nat :=
  match d.ev with
  | .accessAccepted =>
    match s.partAt d.arg.who d.arg.what with
    | none => (1, 0)
    | some (a, p) =>
      match p.tgt with
      | .bank k _ _ => (1, bankPort k a.core * 2 ^ 64 + a.id)
      | .slice sl _ => (1, slicePort sl a.core * 2 ^ 64 + a.id)
      | _ => (1, a.id)
  | .probeEcho =>
    let core := s.at d.arg.who
    if d.arg.val = 0 then (0, 0)
    else if d.arg.what < 2 ^ 13 then (1, bankPort (d.arg.what / 8) core * 2 ^ 64 + s.nextId)
    else (1, slicePort (d.arg.what - 2 ^ 13) core * 2 ^ 64 + s.nextId)
  | .objectRequestArrival =>
    if d.arg.what = 0 then (4, 0)
    else
      match s.msg (d.arg.what - 1) with
      | some (.request r) => (1, slicePort d.arg.who r.origin.1 * 2 ^ 64)
      | _ => (1, 0)
  | .messageArrival | .messageRetry =>
    match s.msg d.arg.what with
    | some b => (1, messagePort d.arg.who b)
    | none => (1, 0)
  | .sliceDataServe =>
    if d.arg.what = 0 then (4, 0)
    else if d.arg.what < forwardMark then (1, slicePort d.arg.who d.arg.val * 2 ^ 64)
    else (1, slicePort d.arg.who ((s.acc (d.arg.what - forwardMark)).elim 0 fun a => a.core) * 2 ^ 64)
  | .placeContext => (2, d.arg.who)
  | .spawnCreation =>
    match s.msg d.arg.what with
    | some (.create _ _ _ g) => (2, 2 + g)
    | _ => (2, 2)
  | .slotFill => (3, 0)
  | .mxCommandStart => (2, d.arg.who)
  | .bankGrant => if d.arg.what = 0 then (4, 0) else (1, 9 * 2 ^ 64)
  | .hbmChannelServe | .gmmaAdmit | .switchOutputGrant => (4, 0)
  | .cpUnit | .cpWritesAcked => (4, d.arg.who)
  | .stealProbeResult => (5, d.arg.who)
  | _ => (0, 0)

/-- A place before or with another. -/
def rankLe (a b : Nat × Nat) : Bool := decide (a.1 < b.1) || (a.1 == b.1 && decide (a.2 ≤ b.2))

/-- The earliest entry of the agenda, of several the first by rank, and the others. -/
def takeDue (rank : Due → Nat × Nat) : List Due → Option (Due × List Due)
  | [] => none
  | d :: ds =>
    match takeDue rank ds with
    | none => some (d, [])
    | some (e, rest) =>
      if d.at_ < e.at_ ∨ (d.at_ = e.at_ ∧ rankLe (rank d) (rank e) = true) then some (d, ds) else some (e, d :: rest)

/-- A steal comes to a deque's port after the owner's own operation of the cycle (R167), a turn's among them. -/
def Due.late (d : Due) : Bool := decide (d.ev = .stealProbeResult)

/-- The first turn of a Running context in its slot, not before the present cycle (R3). One whose kill is under way has none (R381), nor
one that PARK_RESUME brings to its first. -/
def Ctx.nextTurn (c : Ctx) (now : Nat) : Option Nat :=
  if c.st = .running ∧ c.kill.isNone ∧ !c.resuming then c.slot.map fun k => turnAt k (Nat.max now c.readyAt) else none

/-- The earliest turn among contexts, the lowest context id first: cycle and context. -/
def firstTurn (now : Nat) : List (Nat × Ctx) → Option (Nat × Nat)
  | [] => none
  | (g, c) :: cs =>
    match c.nextTurn now, firstTurn now cs with
    | none, r => r
    | some t, none => some (t, g)
    | some t, some (u, h) => if t ≤ u then some (t, g) else some (u, h)

/-- What comes next: an event, or a context's turn at a cycle; nothing is due otherwise. -/
inductive Coming where
  | event (d : Due) (rest : List Due)
  | turn (cycle gid : Nat)
  | nothing
  deriving DecidableEq, Repr

/-- The next step: events before turns of the same cycle (R179), but for a steal. DESIGN CHOICE, notes/assumptions/3.md. -/
def State.coming (s : State) : Coming :=
  match takeDue s.rank s.agenda, firstTurn s.cycle s.ctxs with
  | none, none => .nothing
  | some (d, rest), none => .event d rest
  | none, some (c, g) => .turn c g
  | some (d, rest), some (c, g) => if d.at_ < c ∨ (d.at_ = c ∧ d.late = false) then .event d rest else .turn c g

/-- The cause and TVAL of a bundle that decodes to no instruction (R15, R18). DEDUCED, notes/assumptions/14.md. -/
def decodeTrap : DecodeFault → Trap
  | .misalignedPair w => (Cause.misalignedPair, w)
  | .illegalOp w => (Cause.illegalOp, w)
  | .extUnclaimed w => (Cause.extUnclaimed, w)

/-- What a turn presents: nothing (the turn passes unused), or an instruction or step with the state it acts on. -/
inductive TurnAct where
  | pass (s : State)
  | run (i : Instr) (s : State)
  deriving DecidableEq, Repr

/-- The trailing context of a pair may issue a bundle only after the leader issued its own at an earlier turn, or took a cause at
it (R195). -/
def State.trailerWaits (s : State) (c : Ctx) : Bool :=
  match c.twin with
  | none => false
  | some t =>
    !t.leader &&
    match (s.ctx t.partner).twin with
    | none => false
    | some l =>
      let next : Option QueueVal := l.queue[l.taken]?
      !(decide (t.issued + 1 < l.issued) || (decide (t.issued < l.issued) && decide (l.issuedAt < s.cycle))
        || next.any fun v => v.bundle == t.issued && (match v.kind with | .cause _ _ _ => true | _ => false))

/-- The leading context of a context's pair. -/
def State.leaderOf (s : State) (g : Nat) : Nat :=
  match (s.ctx g).twin with
  | some t => if t.leader then g else t.partner
  | none => g

/-- The context leaves its slot at this turn: its core pre-empts it, a Ready context still waits for a slot, and nothing of it is
outstanding (R163). -/
def State.leavesNow (s : State) (g : Nat) : Bool :=
  let c := s.ctx g
  let k := s.core (s.at g)
  c.leaves && c.pre && s.outranked (s.at g) c.prio && k.freeSlots.isEmpty && c.pend.isEmpty
    && c.outstanding.isNone && s.imageRoom (s.at g)

/-- A turn of a context at a cycle (R178): an asynchronous or fatal cause first (R365), else the bundle fetched for it;
what decodes to no instruction or could not be fetched is the step ILLEGAL_OP, which raises the cause it is given, a memory
instruction's only once it would issue (R192, R193). A slot of a halted partition or of a core under a lease parks instead (R379,
R423). -/
def State.turn (s : State) (cycle g : Nat) : TurnAct :=
  let s := { s with cycle := cycle, cur := g }
  let c := s.ctx g
  let stop := s.stopped (s.at g)
  if c.async ≠ [] ∧ (stop = none ∨ c.async.any Cause.fatal) then .run .asyncCauseTaken { s with arg := ⟨g, 0, 0, .none⟩ }
  else if stop ≠ none then .pass (s.park g (stop.getD .none))
  else if s.leavesNow g then .pass (s.leaveReady g)
  else if s.trailerWaits c then .pass (s.setCtx g { c with readyAt := cycle + 1 })
  else
    match c.latch with
    | none => .pass (s.setCtx g { c with readyAt := cycle + 1 })
    | some (.failed cause tval) => .run .illegalOp { s with arg := ⟨g, cause, tval.toNat, .none⟩ }
    | some (.words ws) =>
      match decodeBundle (c.pc.toNat % 8 == 0) ws with
      | .error f =>
        let t := (headTrap (c.pc.toNat % 8 == 0) ws).getD (decodeTrap f)
        if s.wordHeld (ws.headD 0) then .pass (s.holdIssue .issue) else .run .illegalOp { s with arg := ⟨g, t.1, t.2.toNat, .none⟩ }
      | .ok (b, n) =>
        let s := { s with bun := b, blen := n }
        match s.pairTurn with
        | .pass t => .pass t
        | .run => .run b.op (if c.twin.isSome then s.modCtx g Ctx.checkpointed else s)
        | .mismatch => .run .twinCompare { s.modCtx g Ctx.checkpointed with arg := ⟨s.leaderOf g, 1, 0, .none⟩ }

/-- The instruction words of w: nbits of them, and a word of zeros after them. -/
def placedWords (nbits w : Nat) : List Code :=
  (List.range (nbits / 32 + 1)).map fun k => BitVec.ofNat 32 (if k < nbits / 32 then w / 2 ^ (32 * k) else 0)

/-- A context that runs in slot 0 of core 0 with the given words fetched at its PC. -/
def Ctx.placed (c : Ctx) (ws : List Code) (now : Nat) : Ctx :=
  { c with st := .running, moved := none, slot := some 0, wait := .none, latch := some (.words ws), async := []
           readyAt := now, twin := none }

/-- The words stand in the instruction cache's sector at the PC as well. -/
def sectorData (ws : List Code) : BitVec 512 :=
  BitVec.ofNat 512 ((List.range ws.length).foldl (fun n k => n + (ws.getD k 0).toNat * 2 ^ (32 * k)) 0)

/-- The state in which the very next step is the turn of slot 0 of core 0, with the words fetched for it
(notes/assumptions/16.md). -/
def State.placeWords (s : State) (ws : List Code) : State :=
  let now := turnAt 0 s.cycle
  let g := gidOf 0 0
  let c := s.ctx g
  let s := { s with cycle := now, agenda := s.agenda.filter fun d => decide (now < d.at_) }
  let s := s.modCore 0 fun k =>
    (k.setSlot 0 ⟨some g, none, now⟩)
  let s := s.modCore 0 fun k =>
    { k with l1i := cacheInsert l1Set 4 k.l1i (c.pc.toNat / 64 * 64) (sectorData ws <<< (8 * (c.pc.toNat % 64))) }
  s.setCtx g (c.placed ws now)

end Sys2Proof.Machine
end

