-- ==== Sys2Proof/Machine/Step.lean ====
section
/-!
DEFINITION. One step of the machine, and the placing of one instruction where the next step runs it.
-/
namespace Sys2Proof.Machine

/-- The earliest event or turn takes place; when nothing is due, the clock advances. -/
def step (s : State) : Host.Outcome State Fault Refusal :=
  match s.coming with
  | .nothing => .next { s with cycle := s.cycle + 1 }
  | .event d rest => exec d.ev { s with agenda := rest, cycle := Nat.max s.cycle d.at_, arg := d.arg }
  | .turn cycle g =>
    match s.turn cycle g with
    | .pass t => .next t
    | .run i t => exec i t

/-- One instruction of nbits bits placed so that the next step runs it. -/
def State.withFetchWord (s : State) (nbits w : Nat) : State := s.placeWords (placedWords nbits w)

end Sys2Proof.Machine
end

