-- ==== Sys2Proof/Safety.lean ====
section
/-!
DEFINITION. The terms that claims use: a safe run, what a bundle needs in order to issue, and what a bundle that completes
leaves as it was.
-/
namespace Sys2Proof.Machine

/-- The memory of the module and the host's memory as the device wrote it are canonical. -/
def State.Inv (s : State) : Prop := memWf s.mem ∧ memWf s.hostMem

/-- A step from s answers a next state. -/
def State.Goes (s : State) : Prop := ∃ t, step s = .next t

/-- None of some registers is pending (R187). -/
def Ctx.Clear (c : Ctx) (rs : List RegName) : Prop := ∀ p ∈ c.pend, p.reg ∉ rs

/-- The lone word or two-way check i finds none of its registers pending (R187). -/
def State.ClearFor (s : State) (i : Instr) : Prop := (s.ctx s.cur).Clear (i.reads ++ i.writes)

/-- The bundle with head i finds none of its registers pending (R187), and its tail has an effect, not a cause (R14). -/
def State.HeadReady (s : State) (i : Instr) (e : Effect) : Prop :=
  (s.ctx s.cur).Clear (bundleReads i s.bun.tail ++ (s.ctx s.cur).impliedReads i ++ bundleWrites i s.bun.tail) ∧
    tailEffect s.bun.tail (s.ctx s.cur) = .ok e

/-- No cause is recorded for the current context, or the bundle in issue has no switch marker (R189, R190). -/
def State.Unmarked (s : State) : Prop := s.bun.marker = false ∨ (s.ctx s.cur).rcause = 0

/-- The value that the last of some writes gives a register; none when none names it. -/
def writtenTo (ws : List RegWrite) (r : RegName) : Option Nat :=
  ws.foldl (fun v w => if w.reg = r then some w.val else v) none

/-- The three register files after some writes: each register holds the last value written to it, at its width, or what it
held; s0 reads 0 and m0 all ones (R29). -/
structure RegsAfter (c d : Ctx) (ws : List RegWrite) : Prop where
  scalar : ∀ r : SReg, d.getS r =
    if r = 0 then 0 else match writtenTo ws (.s r) with
      | some v => BitVec.ofNat 64 v
      | none => c.getS r
  vector : ∀ r : VReg, d.getV r =
    match writtenTo ws (.v r) with
      | some v => BitVec.ofNat 512 v
      | none => c.getV r
  mask : ∀ r : MReg, d.getM r =
    if r = 0 then BitVec.allOnes 64 else match writtenTo ws (.m r) with
      | some v => BitVec.ofNat 64 v
      | none => c.getM r

/-- The control registers of a context but TOUCH, the trap registers, the modes and what is recorded stay (R218, R368 to
R370). -/
structure SameSystem (c d : Ctx) : Prop where
  domain : d.domain = c.domain
  prio   : d.prio = c.prio
  tfmt   : d.tfmt = c.tfmt
  tscale : d.tscale = c.tscale
  gtol   : d.gtol = c.gtol
  wlimit : d.wlimit = c.wlimit
  tquant : d.tquant = c.tquant
  trappc : d.trappc = c.trappc
  tcause : d.tcause = c.tcause
  tval   : d.tval = c.tval
  tvecU  : d.tvecU = c.tvecU
  tvecS  : d.tvecS = c.tvecS
  tdeleg : d.tdeleg = c.tdeleg
  tsave  : d.tsave = c.tsave
  prv    : d.prv = c.prv
  uh     : d.uh = c.uh
  sh     : d.sh = c.sh
  pprv   : d.pprv = c.pprv
  puh    : d.puh = c.puh
  wake   : d.wake = c.wake
  eerr   : d.eerr = c.eerr
  pre    : d.pre = c.pre
  rcause : d.rcause = c.rcause
  rtval  : d.rtval = c.rtval
  rnext  : d.rnext = c.rnext
  gen    : d.gen = c.gen
  rbk    : d.rbk = c.rbk
  moves  : d.moves = c.moves

/-- Memory reads as before at every address, the tags and poison stand, and no other context has changed. -/
structure SameMemory (s t : State) : Prop where
  bytes  : ∀ a, memGet t.mem a = memGet s.mem a
  tags   : t.tags = s.tags
  poison : t.poison = s.poison
  others : ∀ g, g ≠ s.cur → t.ctx g = s.ctx g

/-- The cores with their caches, PLBs, banks, message stores, ready queues and matrix units, the clusters, slices and dies,
the accesses in flight and the networks stand. -/
structure SameUnits (s t : State) : Prop where
  cores    : t.cores = s.cores
  clusters : t.clusters = s.clusters
  slices   : t.slices = s.slices
  dies     : t.dies = s.dies
  accs     : t.accs = s.accs
  net      : t.net = s.net
  parts    : t.parts = s.parts

/-- The pending registers that the long results of an effect make, from a cycle on (R186); s0 and m0 are never pending. -/
def pendOf (e : Effect) (now : Nat) : List Pend :=
  (e.later.filter fun x => !x.2.reg.isConst).map fun x => ⟨x.2.reg, .result (now + x.1) x.2.val⟩

/-- Writes of turn class (latency 0) or with a latency (R186). -/
def timed (latency : Nat) (ws : List RegWrite) : Effect := if latency = 0 then Effect.turn ws else Effect.long latency ws

/-- A bundle completed with an effect, and the next bundle is at an address: its turn-class results stand in their
registers, its long results are pending, and nothing else that a program sees has changed (R14, R15, R186). -/
structure Completed (s t : State) (e : Effect) (next : Word) : Prop where
  regs   : RegsAfter (s.ctx s.cur) (t.ctx s.cur) e.now
  pend   : (t.ctx s.cur).pend = (s.ctx s.cur).pend ++ pendOf e s.cycle
  pc     : (t.ctx s.cur).pc = next
  wcount : (t.ctx s.cur).wcount = 0
  touch  : (t.ctx s.cur).touch = (s.ctx s.cur).touch
  system : SameSystem (s.ctx s.cur) (t.ctx s.cur)
  memory : SameMemory s t
  units  : SameUnits s t

/-- A transfer's target passes the checks of R184 for a context in a mode: a clear top byte, a word-aligned register target, the
right X under a user's PLB, a word of a class that may start a bundle, a pair at a multiple of 8; and its sector is in the
core's instruction cache. -/
structure State.TargetOk (s : State) (g : Nat) (byReg prv : Bool) (t : Word) : Prop where
  top    : bits t 63 56 = 0
  word   : byReg = true → t.toNat % 4 = 0
  right  : prv = true ∨ Rights.cover (s.plbRights (s.at g) (s.ctx g).domain t) 4 = true
  cached : ∃ x, cacheFind (s.core (s.at g)).l1i t.toNat = some x ∧ Code.cls (sectorWord x.data t.toNat) ≠ 2 ∧
    Code.cls (sectorWord x.data t.toNat) ≠ 3 ∧ (Code.cls (sectorWord x.data t.toNat) = 0 → t.toNat % 8 = 0)

/-- What a control-flow instruction does (R211 to R215): whether it transfers, to where, whether by a register, and what it
writes. -/
def flowOf (i : Instr) (s : State) : Option (Bool × Word × Bool × List RegWrite) :=
  let c := s.ctx s.cur
  let n := fun (r : SReg) => (c.getS r).toInt
  let u := fun (r : SReg) => (c.getS r).toNat
  let rel := fun (o : Word) => c.pc + 4 * o
  let back := c.pc + word (4 * s.blen)
  match i with
  | .nopc => some (false, 0, false, [])
  | .beq a b o => some (decide (c.getS a = c.getS b), rel o.value, false, [])
  | .bne a b o => some (decide (c.getS a ≠ c.getS b), rel o.value, false, [])
  | .blt a b o => some (decide (n a < n b), rel o.value, false, [])
  | .bge a b o => some (decide (n b ≤ n a), rel o.value, false, [])
  | .bltu a b o => some (decide (u a < u b), rel o.value, false, [])
  | .bgeu a b o => some (decide (u b ≤ u a), rel o.value, false, [])
  | .loop a b o => some (decide (c.getS a - 1 ≠ c.getS b), rel o.value, false, [setS a (c.getS a - 1)])
  | .jmp o => some (true, rel (o.signExtend 64), false, [])
  | .call o => some (true, rel (o.signExtend 64), false, [setS 1 back])
  | .jr a m => some (true, c.getS a + 4 * m.value, true, [])
  | .callr a m => some (true, c.getS a + 4 * m.value, true, [setS 1 back])
  | _ => none

/-- The instruction stands on the A side of the opcode map (R8). -/
def isArith (i : Instr) : Bool := (encInstr i).any fun c => c.side

/-- The instruction stands on the C side of the opcode map (R8): it is a bundle's head. -/
def isHead (i : Instr) : Bool := (encInstr i).any fun c => !c.side

/-- The value that MTC of x leaves in a control register: reserved bits ignored (R5, R218, R368 to R370); `old` is its value
before. -/
def ctlKept (num : Nat) (x old : Word) : Word :=
  match num with
  | 0x003 => word (bits x 15 0)
  | 0x004 => word (bits x 1 0)
  | 0x012 => word (bits x 31 0)
  | 0x022 => x
  | 0x023 => word (Nat.max 16 (bits x 15 0))
  | 0x030 => word (bits x 56 0)
  | 0x031 => word (bits x 10 0)
  | 0x032 => x
  | 0x033 => word (2 ^ 11 * bits x 56 11)
  | 0x034 => word (2 ^ 11 * bits x 56 11)
  | 0x035 => x &&& 0x2FE000
  | 0x036 => x
  | 0x037 => x
  | 0x038 => x
  | 0x039 => x
  | 0x03A => word (old.toNat - 128 * bits old 7 7 + 128 * bits x 7 7)
  | _ => old

/-- A context that takes a cause enters its handler at once: it runs or is parked, no register is pending, the cause is not
fatal, a handler stands and no user handler is left (R364, R366, R367). -/
structure Ctx.EntersNow (c : Ctx) (cause : Nat) : Prop where
  alive   : c.st = .running ∨ c.st = .parked
  drained : c.pend = []
  mild    : Cause.fatal cause = false
  handler : c.noHandler cause = false
  first   : c.escalates = false

/-- The handler has been entered (R367, R369): what is saved, the mode, the handler's address, and the first turn it may use. -/
structure Entered (c d : Ctx) (cause : Nat) (tval pc : Word) (late : Bool) (now : Nat) : Prop where
  trappc : d.trappc = pc.setWidth 57
  tcause : d.tcause = BitVec.ofNat 11 (cause + (if late then 2 ^ 8 else 0) + (if c.toUser cause then 2 ^ 10 else 0))
  tval   : d.tval = tval
  pprv   : d.pprv = c.prv
  puh    : d.puh = c.uh
  user   : c.toUser cause = true → d.uh = true ∧ d.sh = c.sh ∧ d.prv = c.prv ∧ d.pc = c.tvecU.setWidth 64 + word (64 * cause)
  super  : c.toUser cause = false → d.uh = c.uh ∧ d.sh = true ∧ d.prv = true ∧ d.pc = c.tvecS.setWidth 64 + word (64 * cause)
  runs   : d.st = .running
  ready  : now + 32 ≤ d.readyAt
  files  : d.s = c.s ∧ d.v = c.v ∧ d.m = c.m

end Sys2Proof.Machine
end

