-- ==== Sys2Proof/Safety/Results.lean ====
section
/-!
DEFINITION. The results that the tables of the spec give the arithmetic instructions, written over whole numbers, for claims
to compare the meanings with: the destination, its value and the latency (0 for turn class).
-/
namespace Sys2Proof.Machine

/-- The operand of an integer instruction at width 32 or 64, unsigned: u(s_a) (R200). -/
def unsignedAt (w32 : Bool) (x : Word) : Nat := x.toNat % (if w32 then 2 ^ 32 else 2 ^ 64)

/-- The operand at width 32 or 64, two's complement: i(s_a) (R200). -/
def signedAt (w32 : Bool) (x : Word) : Int :=
  let u := unsignedAt w32 x
  if u < (if w32 then 2 ^ 31 else 2 ^ 63) then (u : Int) else (u : Int) - (if w32 then 2 ^ 32 else 2 ^ 64)

/-- A result modulo 2^w; at width 32 sign-extended from bit 31 (R200). -/
def resultAt (w32 : Bool) (r : Int) : Word :=
  if w32 then
    let n := r % 2 ^ 32
    BitVec.ofInt 64 (if n < 2 ^ 31 then n else n - 2 ^ 32)
  else BitVec.ofInt 64 r

/-- How many of the 64 numbers from 0 have a property. -/
def count64 (p : Nat → Bool) : Word := BitVec.ofNat 64 ((List.range 64).countP p)

/-- The word whose bit k is p k. -/
def wordOfBits (p : Nat → Bool) : Word :=
  (List.range 64).foldl (fun w k => if p k then w ||| ((1 : Word) <<< k) else w) 0

/-- Position and length of the field that s_b gives BFX and BFI (R202). -/
def bitField (b : Word) : Nat × Nat :=
  let pos := b.toNat % 64
  let len := if b.toNat / 2 ^ 8 % 64 = 0 then 64 else b.toNat / 2 ^ 8 % 64
  (pos, Nat.min len (64 - pos))

/-- The results of R201 to R204: destination, value, latency. -/
def intResult (i : Instr) (c : Ctx) : Option (SReg × Word × Nat) :=
  let u := fun (r : SReg) => (c.getS r).toNat
  let n := fun (r : SReg) => (c.getS r).toInt
  let truth := fun (p : Bool) => if p then (1 : Word) else 0
  match i with
  | .add w d a b => some (d, resultAt w (signedAt w (c.getS a) + signedAt w (c.getS b)), 0)
  | .sub w d a b => some (d, resultAt w (signedAt w (c.getS a) - signedAt w (c.getS b)), 0)
  | .mul w d a b => some (d, resultAt w (signedAt w (c.getS a) * signedAt w (c.getS b)), 0)
  | .and d a b => some (d, wordOfBits fun k => (c.getS a).getLsbD k && (c.getS b).getLsbD k, 0)
  | .or d a b => some (d, wordOfBits fun k => (c.getS a).getLsbD k || (c.getS b).getLsbD k, 0)
  | .xor d a b => some (d, wordOfBits fun k => (c.getS a).getLsbD k != (c.getS b).getLsbD k, 0)
  | .andn d a b => some (d, wordOfBits fun k => (c.getS a).getLsbD k && !(c.getS b).getLsbD k, 0)
  | .shl d a b => some (d, BitVec.ofNat 64 (u a * 2 ^ (u b % 64)), 0)
  | .shr d a b => some (d, BitVec.ofNat 64 (u a / 2 ^ (u b % 64)), 0)
  | .sra d a b => some (d, BitVec.ofInt 64 (n a / 2 ^ (u b % 64)), 0)
  | .mulh d a b => some (d, BitVec.ofInt 64 (n a * n b / 2 ^ 64), 0)
  | .mulhu d a b => some (d, BitVec.ofNat 64 (u a * u b / 2 ^ 64), 0)
  | .div w d a b =>
    let x := signedAt w (c.getS a)
    let y := signedAt w (c.getS b)
    some (d, resultAt w (if y = 0 then -1 else x.tdiv y), 36)
  | .rem w d a b =>
    let x := signedAt w (c.getS a)
    let y := signedAt w (c.getS b)
    some (d, resultAt w (x - x.tdiv y * y), 36)
  | .divu w d a b =>
    let x := unsignedAt w (c.getS a)
    let y := unsignedAt w (c.getS b)
    some (d, resultAt w (if y = 0 then -1 else ((x / y : Nat) : Int)), 36)
  | .remu w d a b =>
    let x := unsignedAt w (c.getS a)
    let y := unsignedAt w (c.getS b)
    some (d, resultAt w ((x - x / y * y : Nat) : Int), 36)
  | .min d a b => some (d, if n a ≤ n b then c.getS a else c.getS b, 0)
  | .max d a b => some (d, if n a ≤ n b then c.getS b else c.getS a, 0)
  | .minu d a b => some (d, if u a ≤ u b then c.getS a else c.getS b, 0)
  | .maxu d a b => some (d, if u a ≤ u b then c.getS b else c.getS a, 0)
  | .cmpeq d a b => some (d, truth (decide (c.getS a = c.getS b)), 0)
  | .cmpne d a b => some (d, truth (decide (c.getS a ≠ c.getS b)), 0)
  | .cmplt d a b => some (d, truth (decide (n a < n b)), 0)
  | .cmpltu d a b => some (d, truth (decide (u a < u b)), 0)
  | .cmple d a b => some (d, truth (decide (n a ≤ n b)), 0)
  | .cmpleu d a b => some (d, truth (decide (u a ≤ u b)), 0)
  | .sel d a b e => some (d, if c.getS e = 0 then c.getS b else c.getS a, 0)
  | .clz d a => some (d, count64 fun k => decide (u a < 2 ^ k), 0)
  | .ctz d a => some (d, count64 fun k => decide (u a % 2 ^ (k + 1) = 0), 0)
  | .popc d a => some (d, count64 fun k => decide (u a / 2 ^ k % 2 = 1), 0)
  | .bfx d a b sg =>
    let f := bitField (c.getS b)
    let x : Nat := u a / 2 ^ f.1 % 2 ^ f.2
    some (d, BitVec.ofInt 64 (if sg ∧ 2 ^ (f.2 - 1) ≤ x then (x : Int) - 2 ^ f.2 else (x : Int)), 0)
  | .bfi d a b =>
    let f := bitField (c.getS b)
    some (d, wordOfBits fun k =>
      if f.1 ≤ k ∧ k < f.1 + f.2 then (c.getS a).getLsbD (k - f.1) else (c.getS d).getLsbD k, 0)
  | .addi d a m => some (d, BitVec.ofInt 64 (n a + m.value.toInt), 0)
  | .andi d a m => some (d, wordOfBits fun k => (c.getS a).getLsbD k && m.value.getLsbD k, 0)
  | .ori d a m => some (d, wordOfBits fun k => (c.getS a).getLsbD k || m.value.getLsbD k, 0)
  | .xori d a m => some (d, wordOfBits fun k => (c.getS a).getLsbD k != m.value.getLsbD k, 0)
  | .shli d a m => some (d, BitVec.ofNat 64 (u a * 2 ^ (m.value.toNat % 64)), 0)
  | .shri d a m => some (d, BitVec.ofNat 64 (u a / 2 ^ (m.value.toNat % 64)), 0)
  | .srai d a m => some (d, BitVec.ofInt 64 (n a / 2 ^ (m.value.toNat % 64)), 0)
  | .cmpeqi d a m => some (d, truth (decide (n a = m.value.toInt)), 0)
  | .cmplti d a m => some (d, truth (decide (n a < m.value.toInt)), 0)
  | .li d m => some (d, m.value, 0)
  | .lui d m => some (d, BitVec.ofInt 64 (m.value.toInt * 2 ^ 18), 0)
  | _ => none

/-- The exact value of a finite FP32 code, scaled by 2^149. -/
def f32Scaled (x : Nat) : Int :=
  let m : Nat := if x % 2 ^ 31 < 2 ^ 23 then x % 2 ^ 23 else (2 ^ 23 + x % 2 ^ 23) * 2 ^ (x / 2 ^ 23 % 2 ^ 8 - 1)
  if x % 2 ^ 32 < 2 ^ 31 then (m : Int) else -(m : Int)

/-- An FP32 code is a NaN. -/
def f32IsNan (x : Nat) : Bool := decide (2 ^ 31 - 2 ^ 23 < x % 2 ^ 31)

/-- The results of R205 to R209: destination, value, latency. Sums, products, quotients and roots are exact values rounded
once to FP32, to nearest even; bits [63:32] are 0 (R30). -/
def floatResult (i : Instr) (c : Ctx) : Option (SReg × Word × Nat) :=
  let x := fun (r : SReg) => (c.getS r).toNat % 2 ^ 32
  let v := fun (r : SReg) => fp32.decode (x r)
  let out := fun (y : FpVal) => word (fp32.encode .rne false y)
  match i with
  | .fadd d a b => some (d, out ((v a).add (v b)), 0)
  | .fsub d a b => some (d, out ((v a).add (v b).negate), 0)
  | .fmul d a b => some (d, out ((v a).mul (v b)), 0)
  | .ffma d a b e => some (d, out (((v a).mul (v b)).add (v e)), 0)
  | .fdiv d a b => some (d, out ((v a).div (v b)), 28)
  | .fsqrt d a => some (d, out (v a).sqrt, 28)
  | .fmin d a b =>
    some (d, word (if f32IsNan (x a) ∧ f32IsNan (x b) then 0x7FC00000 else if f32IsNan (x a) then x b
      else if f32IsNan (x b) then x a else if (v b).below (v a) then x b else x a), 0)
  | .fmax d a b =>
    some (d, word (if f32IsNan (x a) ∧ f32IsNan (x b) then 0x7FC00000 else if f32IsNan (x a) then x b
      else if f32IsNan (x b) then x a else if (v a).below (v b) then x b else x a), 0)
  | .fcmp d a b p =>
    let un := f32IsNan (x a) || f32IsNan (x b)
    let p := p.toNat
    some (d, if (if un then decide (p = 3 ∨ p = 4) else match p with
      | 0 => decide (f32Scaled (x a) = f32Scaled (x b))
      | 1 => decide (f32Scaled (x a) < f32Scaled (x b))
      | 2 => decide (f32Scaled (x a) ≤ f32Scaled (x b))
      | 4 => decide (f32Scaled (x a) ≠ f32Scaled (x b))
      | _ => false) then 1 else 0, 0)
  | .fcvt d a k rm sat =>
    some (d, match k.toNat with
      | 0 => BitVec.ofInt 64 ((v a).toInt rm 64)
      | 1 => BitVec.ofInt 64 ((v a).toInt rm 32)
      | 2 => word (fp32.encode rm false (.ofInt (c.getS a).toInt))
      | 3 => word (fp32.encode rm false (.ofInt (signedAt true (c.getS a))))
      | 4 => word (bf16.encode rm sat (v a))
      | 5 => word (if f32IsNan ((c.getS a).toNat % 2 ^ 16 * 2 ^ 16) then 0x7FC00000 else (c.getS a).toNat % 2 ^ 16 * 2 ^ 16)
      | 6 => word (fp16.encode rm sat (v a))
      | _ => word (fp32.encode .rne false (fp16.decode ((c.getS a).toNat % 2 ^ 16))), 0)
  | .fclass d a =>
    let e := x a / 2 ^ 23 % 2 ^ 8
    let f := x a % 2 ^ 23
    let neg := decide (2 ^ 31 ≤ x a)
    some (d, word (2 ^ (
      if e = 255 ∧ f ≠ 0 then (if 2 ^ 22 ≤ f then 8 else 9)
      else if e = 255 then (if neg then 0 else 7)
      else if e = 0 ∧ f = 0 then (if neg then 3 else 4)
      else if e = 0 then (if neg then 2 else 5)
      else if neg then 1 else 6)), 0)
  | _ => none

/-- A lane operation under the mask: an inactive lane keeps its value (R222). -/
def underMask (ty : LaneType) (m : Word) (old : Vec) (f : Nat → Nat) (l : Nat) : Nat :=
  if m.getLsbD l then f l else lane ty.width old l

/-- A lane's value computed over its format: an exact floating-point value rounded once to nearest even, or an integer brought
into the lane by wrapping or clamping (R223, R225). -/
def laneValue (o : VArgs) (fp : FpVal) (int : Int) : Nat :=
  match laneFmt o.ty with
  | some f => f.encode .rne false fp
  | none =>
    let w := o.ty.width
    let r := if !o.fn.getLsbD 0 then int
      else if o.fn.getLsbD 1 then max 0 (min (2 ^ w - 1) int)
      else max (-2 ^ (w - 1)) (min (2 ^ (w - 1) - 1) int)
    (r % 2 ^ w).toNat

/-- The vector results of R225 to R239: destination, lane width, latency, and the value of each lane. -/
def vecResult (i : Instr) (c : Ctx) : Option (VReg × Nat × Nat × (Nat → Nat)) :=
  let plain := fun (o : VArgs) (f : Nat → Nat) =>
    some (o.vd, o.ty.width, 0, underMask o.ty (c.getM o.m) (c.getV o.vd) f)
  let x := fun (o : VArgs) l => lane o.ty.width (c.getV o.va) l
  let y := fun (o : VArgs) l => lane o.ty.width (c.getV o.vb) l
  let z := fun (o : VArgs) l => lane o.ty.width (c.getV o.vd) l
  let num := fun (o : VArgs) (k : Nat) => laneInt o.ty.width (o.fn.getLsbD 1) k
  let val := fun (o : VArgs) (k : Nat) => ((laneFmt o.ty).getD fp32).decode k
  match i with
  | .vadd o => plain o fun l => laneValue o ((val o (x o l)).add (val o (y o l))) (num o (x o l) + num o (y o l))
  | .vsub o => plain o fun l => laneValue o ((val o (x o l)).add (val o (y o l)).negate) (num o (x o l) - num o (y o l))
  | .vmul o => plain o fun l =>
    if o.fn.getLsbD 2 ∧ o.ty.isInt then ((num o (x o l) * num o (y o l) / 2 ^ o.ty.width) % 2 ^ o.ty.width).toNat
    else laneValue o ((val o (x o l)).mul (val o (y o l))) (num o (x o l) * num o (y o l))
  | .vfma o => plain o fun l =>
    laneValue o (((val o (x o l)).mul (val o (y o l))).add (val o (z o l))) (num o (x o l) * num o (y o l) + num o (z o l))
  | .vabs o => plain o fun l => laneValue o (val o (x o l)).abs (laneInt o.ty.width false (x o l)).natAbs
  | .vmin o => plain o fun l => match laneFmt o.ty with
    | some f => f.minmax false (x o l) (y o l)
    | none => if num o (y o l) < num o (x o l) then y o l else x o l
  | .vmax o => plain o fun l => match laneFmt o.ty with
    | some f => f.minmax true (x o l) (y o l)
    | none => if num o (x o l) < num o (y o l) then y o l else x o l
  | .vand o => plain o fun l => x o l &&& y o l
  | .vor o => plain o fun l => x o l ||| y o l
  | .vxor o => plain o fun l => x o l ^^^ y o l
  | .vshl o => plain o fun l =>
    if o.ty.isInt then x o l * 2 ^ (y o l % o.ty.width) % 2 ^ o.ty.width else x o l
  | .vshr o => plain o fun l =>
    if o.ty.isInt then
      if o.fn.getLsbD 1 then x o l / 2 ^ (y o l % o.ty.width)
      else ((laneInt o.ty.width false (x o l) / 2 ^ (y o l % o.ty.width)) % 2 ^ o.ty.width).toNat
    else x o l
  | .vsel o => some (o.vd, o.ty.width, 0, fun l => if (c.getM o.m).getLsbD l then x o l else y o l)
  | .vbcast o => some (o.v, o.ty.width, 0, underMask o.ty (c.getM o.m) (c.getV o.v) fun _ => (c.getS o.s).toNat % 2 ^ o.ty.width)
  | .vins o => some (o.v, o.ty.width, 0, fun l =>
    if l = o.lane.toNat then (c.getS o.s).toNat % 2 ^ o.ty.width else lane o.ty.width (c.getV o.v) l)
  | .vperm o => plain o fun l => x o (y o l % o.ty.lanes)
  | .vexp2 o => some (o.vd, 32, 24, underMask .f32 (c.getM o.m) (c.getV o.vd) fun l =>
    toF32 (FpVal.exp2 (ofF32 (lane 32 (c.getV o.va) l))))
  | .vrcp o => some (o.vd, 32, 24, underMask .f32 (c.getM o.m) (c.getV o.vd) fun l =>
    toF32 ((FpVal.fin false 1 0).div (ofF32 (lane 32 (c.getV o.va) l))))
  | .vdot4 o => some (o.vd, 32, 20, fun l =>
    let b := fun j => match o.fn.toNat % 4 with
      | 0 => laneInt 8 false (lane 8 (c.getV o.vb) j)
      | 1 => laneInt 4 false (lane 4 (c.getV o.vb) j)
      | _ => int3At (c.getV o.vb) j
    let t := fun j => if (c.getM o.m).getLsbD j then laneInt 8 false (lane 8 (c.getV o.va) j) * b j else 0
    let r := laneInt 32 false (lane 32 (c.getV o.vd) l) + t (4 * l) + t (4 * l + 1) + t (4 * l + 2) + t (4 * l + 3)
    ((max (-2 ^ 31) (min (2 ^ 31 - 1) r)) % 2 ^ 32).toNat)
  | .vaddsub o => some (o.vd, 32, 0, fun l =>
    let w := o.ty.width
    let js := (List.range (32 / w)).map fun k => 32 / w * l + k
    let old := lane 32 (c.getV o.vd) l
    match laneFmt o.ty with
    | some f =>
      let term := fun j =>
        if !(c.getM o.m).getLsbD j then FpVal.fin true 0 0
        else match f.decode (y o j) with
          | .nan => .nan
          | .fin _ 0 _ => .fin true 0 0
          | v => if v.neg then (f.decode (x o j)).negate else f.decode (x o j)
      toF32 ((ofF32 old).add ((js.map term).foldl FpVal.add (.fin true 0 0)))
    | none =>
      let term := fun j =>
        if !(c.getM o.m).getLsbD j then 0 else Int.sign (sint w (y o j)) * sint w (x o j)
      let r := sint 32 old + (js.map term).sum
      ((max (-2 ^ 31) (min (2 ^ 31 - 1) r)) % 2 ^ 32).toNat)
  | .vcvt o =>
    let st := laneOfCode (o.fn.toNat % 8)
    let part := o.vb.val % 8
    let own := o.fn.getLsbD 3
    let cv := convert (laneKind st) (laneKind o.ty) (if own then .rne else rndOfCode (c.tfmt.toNat / 2 ^ 12 % 4))
      (own || c.tfmt.getLsbD 14)
    let src := fun k => lane st.width (c.getV o.va) k
    plain o fun l =>
      if st.width ≤ o.ty.width then cv (src (part * o.ty.lanes + l))
      else if l / st.lanes = part then cv (src (l % st.lanes))
      else lane o.ty.width (c.getV o.vd) l
  | .unpk4 o => plain o fun l =>
    let base := if o.ty = .i8 then 64 * (o.fn.toNat % 2) else 32 * (o.fn.toNat % 4)
    ((laneInt 4 false (lane 4 (c.getV o.va) (base + l))) % 2 ^ o.ty.width).toNat
  | .unpki3 o => plain o fun l => (int3At (c.getV o.va) (64 * (o.fn.toNat % 2) + l) % 2 ^ 8).toNat
  | _ => none

/-- The mask results of R226 and R228: destination and bit of each lane. -/
def maskResult (i : Instr) (c : Ctx) : Option (MReg × Nat × (Nat → Bool)) :=
  match i with
  | .vcmp o => some (o.md, o.ty.lanes, fun l => (c.getM o.m).getLsbD l &&
      vcmpHolds o.ty o.fn.toNat (lane o.ty.width (c.getV o.va) l) (lane o.ty.width (c.getV o.vb) l))
  | .mop o =>
    let a := fun l => (c.getM o.ma).getLsbD l
    let b := fun l => (c.getM o.mb).getLsbD l
    some (o.md, o.ty.lanes, fun l => match o.fn.toNat with
      | 0 => a l && b l
      | 1 => a l || b l
      | 2 => a l != b l
      | 3 => a l && !b l
      | 4 => !a l
      | _ => a l && (List.range l).all fun k => !a k)
  | _ => none

/-- The scalar results of the vector family (R229 to R231): destination, value, latency. -/
def reduceResult (i : Instr) (c : Ctx) : Option (SReg × Word × Nat) :=
  let active := fun (o : VSArgs) =>
    ((List.range o.ty.lanes).filter fun l => (c.getM o.m).getLsbD l).map fun l => lane o.ty.width (c.getV o.v) l
  match i with
  | .vext o =>
    let x := lane o.ty.width (c.getV o.v) o.lane.toNat
    some (o.s, if o.ty.isInt then BitVec.ofInt 64 (laneInt o.ty.width false x) else word x, 0)
  | .vredadd o =>
    some (o.s, match laneFmt o.ty with
      | some f => match (active o).map f.decode with
        | [] => 0
        | v :: vs => word (toF32 (vs.foldl FpVal.add v))
      | none => BitVec.ofInt 64 ((active o).map (laneInt o.ty.width (o.fn.getLsbD 0))).sum, 20)
  | .vredmax o =>
    some (o.s, match laneFmt o.ty with
      | some f => match (active o).map fun x => fp32.encode .rne false (f.decode x) with
        | [] => 0xFF800000
        | v :: vs => word (vs.foldl (fp32.minmax true) v)
      | none =>
        let uns := o.fn.getLsbD 0
        let xs := (active o).map (laneInt o.ty.width uns)
        BitVec.ofInt 64 (xs.foldl max (if uns then 0 else -2 ^ (o.ty.width - 1))), 20)
  | _ => none

end Sys2Proof.Machine
end

