-- ==== Sys2Proof/Safety/Forms.lean ====
section
/-!
DEFINITION. The forms of the memory, object and bank instructions as tables, and what an access or request that has been put
under way leaves, for claims about their issue.
-/
namespace Sys2Proof.Machine

/-- A load's form (R256, R257, R259, R260, R392): addresses, kind, destinations, bytes, and values for the load-value queue. -/
structure LoadForm where
  form   : MemForm
  kind   : AccKind
  dests  : List RegName
  size   : Nat
  values : Nat
  deriving DecidableEq, Repr

/-- The loads but LDA. -/
def loadOf (i : Instr) (s : State) : Option LoadForm :=
  let c := s.ctx s.cur
  let scalar := fun (o : MArgs) (n : Nat) (sg : Bool) =>
    some (⟨⟨o.am, n, true, [⟨c.getS o.base + o.off.value n, 0, n⟩], o.x⟩, .load n sg, [.s o.d], n, 1⟩ : LoadForm)
  match i with
  | .ldb o => scalar o 1 true
  | .ldbu o => scalar o 1 false
  | .ldh o => scalar o 2 true
  | .ldhu o => scalar o 2 false
  | .ldw o => scalar o 4 true
  | .ldwu o => scalar o 4 false
  | .ldd o => scalar o 8 false
  | .vld o => some ⟨⟨o.am, 64, true, [⟨c.getS o.base + o.off.value 64, 0, 64⟩], o.x⟩, .vector, [.v o.v], 64, 8⟩
  | .vlds o => some ⟨⟨o.am, o.ty.width / 8, false, s.strided o, o.x⟩, .vector, [.v o.v], 64, 8⟩
  | .gld o => some ⟨⟨o.am, 64, false, quadPieces (c.getS o.base + o.off.value 256), o.x⟩, .vector, o.q.vecs, 256, 32⟩
  | _ => none

/-- The stores but STL (R258, R259, R260, R392): addresses and data. -/
def storeOf (i : Instr) (s : State) : Option (MemForm × List Byte) :=
  let c := s.ctx s.cur
  let scalar := fun (o : MArgs) (n : Nat) =>
    some ((⟨o.am, n, true, [⟨c.getS o.base + o.off.value n, 0, n⟩], o.x⟩ : MemForm), bytesOfNat n (c.getS o.d).toNat)
  match i with
  | .stb o => scalar o 1
  | .sth o => scalar o 2
  | .stw o => scalar o 4
  | .std o => scalar o 8
  | .vst o => some (⟨o.am, 64, true, [⟨c.getS o.base + o.off.value 64, 0, 64⟩], o.x⟩, bytesOfNat 64 (c.getV o.v).toNat)
  | .vsts o => some (⟨o.am, o.ty.width / 8, false, s.strided o, o.x⟩, bytesOfNat 64 (c.getV o.v).toNat)
  | .gst o => some (⟨o.am, 64, false, quadPieces (c.getS o.base + o.off.value 256), o.x⟩, c.quadBytes o.q)
  | _ => none

/-- The operands of an object instruction. -/
def objectArgs : Instr → Option OArgs
  | .oinit o | .ofree o | .oread o | .cadd o | .cwait o | .cset o | .barr o | .bwait o | .barw o | .ltake o | .lgive o
  | .qput o | .qget o | .kwait o | .ksig o | .kall o | .feget o | .feput o | .fepeek o => some o
  | _ => none

/-- The operands of an untyped atomic. -/
def atomicArgs : Instr → Option AArgs
  | .aadd o | .aswap o | .acas o | .amax o | .amin o | .aand o | .aor o | .axor o => some o
  | _ => none

/-- The operands of a bank command. -/
def bankArgs : Instr → Option BArgs
  | .bkadd o | .bkmax o | .bkscl o | .bkfma o | .bksmx o | .bkcvt o | .bkfill o | .bkred o => some o
  | _ => none

/-- The memory instructions (R192), and whether one is relaxed (R193): a relaxed access of the host window is carried as any other
(R137). -/
def memoryForm (i : Instr) (s : State) : Option Bool :=
  match loadOf i s, storeOf i s, bankArgs i with
  | some f, _, _ => some f.form.relaxed
  | none, some f, _ => some f.1.relaxed
  | none, none, some o => some o.x
  | none, none, none =>
    if (objectArgs i).isSome ∨ (atomicArgs i).isSome then some false
    else
      match i with
      | .lda _ | .stl _ | .fence _ _ | .l1inv _ _ _ | .send _ _ _ _ _ => some false
      | _ => none

/-- The instructions that only the supervisor may run (R384, R386, R387). -/
def privileged : Instr → Bool
  | .halt | .plbw _ _ _ | .kill _ _ true _ => true
  | _ => false

/-- A memory instruction may issue (R192, R193): no non-relaxed access is under way, and a relaxed one finds its entries. -/
def State.MemoryFree (s : State) (relaxed : Bool) : Prop :=
  (s.ctx s.cur).outstanding = none ∧
    (relaxed = true → (s.ctx s.cur).relaxed < 8 ∧ (s.core (s.at s.cur)).relaxed < 64)

/-- BKSMX's pair m and l over its inputs in order, each step rounded to FP32 (R288): the maximum first, then the old sum rescaled by
2^(m − mx), and a term 2^(x − mx) for each input. -/
def softmaxUpdate (m l : Nat) (xs : List Nat) : Nat × Nat :=
  let round := fp32.encode .rne false
  let mx := xs.foldl (fun a x => fp32.minmax true a x) m
  let power := fun x => fp32.decode (round (fp32.decode (round ((fp32.decode x).add (fp32.decode mx).negate))).exp2)
  if f32IsNan m ∨ f32IsNan l ∨ xs.any f32IsNan then (0x7FC00000, 0x7FC00000)
  else if mx = 0xFF800000 then (m, l)
  else (mx, xs.foldl (fun acc x => round ((fp32.decode acc).add (power x))) (round ((fp32.decode l).mul (power m))))

/-- The values that a load puts into a load-value queue (R195). -/
def loadValues (i : Instr) (s : State) : Option Nat :=
  match i with
  | .lda _ => some 1
  | _ => (loadOf i s).map (·.values)

/-- What stands before the check of a head's pending registers is passed: a memory instruction may issue (R192, R193, R196), the mode may
run it (R18), and a control register's number is in order (R217). -/
structure State.ReachesPending (s : State) (i : Instr) : Prop where
  memory : ∀ relaxed, memoryForm i s = some relaxed → s.MemoryFree relaxed
  queue  : ∀ n, loadValues i s = some n → (s.ctx s.cur).queueFull n = false
  mode   : privileged i = true → (s.ctx s.cur).prv = true
  number : ∀ n, (∃ d, i = .mfc d n) → ctlCheck (s.ctx s.cur) n.toNat false = none
  target : ∀ n, (∃ a, i = .mtc n a) → ctlCheck (s.ctx s.cur) n.toNat true = none

/-- A release at the targets of a mask has nothing to wait for (R254, R262): every relaxed access has been accepted and no
target of the mask is touched. -/
def State.Released (s : State) (mask : Word) : Prop := s.allAccepted s.cur = true ∧ (s.ctx s.cur).touch &&& mask = 0

/-- What is left when the bundle in issue has put an access under way (R186, R191, R193, R253): the access is listed under the
next name, its registers are pending on it, it is the context's outstanding access or one of its relaxed ones, the touched
targets are noted, and no byte of memory has changed yet. -/
structure UnderWay (s t : State) (a : Access) (e : Effect) : Prop where
  listed : a ∈ t.accs
  name   : a.id = s.nextId
  owner  : a.gid = s.cur ∧ a.gen = (s.ctx s.cur).gen ∧ a.pc = (s.ctx s.cur).pc
  regs   : RegsAfter (s.ctx s.cur) (t.ctx s.cur) e.now
  pend   : ∀ r ∈ a.dests, r.isConst = false → ⟨r, .load s.nextId⟩ ∈ (t.ctx s.cur).pend
  kept   : ∀ p ∈ (s.ctx s.cur).pend ++ pendOf e s.cycle, p ∈ (t.ctx s.cur).pend
  order  : (a.relaxed = false → (t.ctx s.cur).outstanding = some s.nextId) ∧
    (a.relaxed = true → (t.ctx s.cur).relaxed = (s.ctx s.cur).relaxed + 1)
  touch  : (t.ctx s.cur).touch = (s.ctx s.cur).touch ||| a.touch
  pc     : (t.ctx s.cur).pc = s.nextPc
  system : SameSystem (s.ctx s.cur) (t.ctx s.cur)
  memory : SameMemory s t

/-- The requests of an access carry its data: every byte of the data stands in the part that holds its place. -/
def Access.Carries (a : Access) (data : List Byte) : Prop :=
  ∀ k, k < data.length → ∃ p ∈ a.parts, ∃ j b : Nat, p.bytes[j]? = some (b, k) ∧ p.data[j]? = data[k]?

/-- What is left when the bundle in issue waits for an answer with its tail's effect held (R94): its registers, memory and
system state stand, and the next bundle is noted. -/
structure Waiting (s t : State) (e : Effect) (w : Wait) : Prop where
  parked : (t.ctx s.cur).st = .parked ∧ (t.ctx s.cur).wait = w
  held   : (t.ctx s.cur).heldTail = some e
  files  : (t.ctx s.cur).s = (s.ctx s.cur).s ∧ (t.ctx s.cur).v = (s.ctx s.cur).v ∧ (t.ctx s.cur).m = (s.ctx s.cur).m
  pend   : (t.ctx s.cur).pend = (s.ctx s.cur).pend
  pc     : (t.ctx s.cur).pc = s.nextPc ∧ (t.ctx s.cur).heldPc = (s.ctx s.cur).pc
  system : SameSystem (s.ctx s.cur) (t.ctx s.cur)
  memory : SameMemory s t

/-- What is left when a parked bundle has its results at once and the slot resumes at its turn (R179). -/
structure Resumes (s t : State) (ws : List RegWrite) (e : Effect) : Prop where
  parked : (t.ctx s.cur).st = .parked ∧ (t.ctx s.cur).resuming = true
  regs   : RegsAfter (s.ctx s.cur) (t.ctx s.cur) (ws ++ e.now)
  pend   : (t.ctx s.cur).pend = (s.ctx s.cur).pend ++ pendOf e s.cycle
  pc     : (t.ctx s.cur).pc = s.nextPc
  system : SameSystem (s.ctx s.cur) (t.ctx s.cur)
  memory : SameMemory s t

end Sys2Proof.Machine
end

