-- ==== Sys2Proof/Safety/Gaussian.lean ====
section
/-!
DEFINITION. Message records and elimination as R388 to R399 state them, over functions of positions, for claims to compare
the Gaussian instructions with.
-/
namespace Sys2Proof.Machine

/-- A precision matrix and an information vector, as FP32 codes by position. -/
structure Block where
  lam : Nat → Nat → Nat
  eta : Nat → Nat

/-- The block of a record; only the upper triangle is read (R389). -/
def Rec.block (r : Rec) : Block where
  lam i j := r.lam.getD (7 * Nat.min i j + Nat.max i j) 0
  eta i := r.eta.getD i 0

/-- The writes put a record into a quad (R388, R389): N, the identities and the unused ones, the header's TAG and DAMP, Λ
mirrored and 0 elsewhere, η and 0 elsewhere. -/
structure IsRecord (ws : List RegWrite) (gd : QReg) (head : Nat) (ids : List Nat) (b : Block) : Prop where
  regs  : ws.map (·.reg) = gd.vecs
  n     : (recOf (Ctx.initial.setRegs ws) gd).n = ids.length
  fits  : ids.length ≤ 7
  clean : (recOf (Ctx.initial.setRegs ws) gd).head / 8 % 32 = 0
  label : (recOf (Ctx.initial.setRegs ws) gd).head / 256 = head / 256
  names : (recOf (Ctx.initial.setRegs ws) gd).ids = ids ++ List.replicate (7 - ids.length) 0xFFFFFFFF
  lam   : ∀ i j, i < 7 → j < 7 → (recOf (Ctx.initial.setRegs ws) gd).lam.getD (7 * i + j) 0 =
    if i < ids.length ∧ j < ids.length then b.lam (Nat.min i j) (Nat.max i j) else 0
  eta   : ∀ i, i < 7 → (recOf (Ctx.initial.setRegs ws) gd).eta.getD i 0 = if i < ids.length then b.eta i else 0

/-- A list of identities is strictly ascending and free of 0xFFFFFFFF (R389). -/
def idsOk : List Nat → Bool
  | [] => true
  | x :: xs => x != 0xFFFFFFFF && (match xs with | [] => true | y :: _ => decide (x < y)) && idsOk xs

/-- A well-formed source record (R389). -/
def Rec.ok (r : Rec) : Bool := r.head / 8 % 32 == 0 && idsOk (r.ids.take r.n)

/-- The ascending union of two ascending lists. -/
def mergeIds : Nat → List Nat → List Nat → List Nat
  | 0, _, _ => []
  | _ + 1, [], ys => ys
  | _ + 1, xs, [] => xs
  | n + 1, x :: xs, y :: ys =>
    if x < y then x :: mergeIds n xs (y :: ys)
    else if y < x then y :: mergeIds n (x :: xs) ys
    else x :: mergeIds n xs ys

/-- An entry of a record by identities, if both lie in its scope (R394). -/
def Rec.lamOf (r : Rec) (i j : Nat) : Option Nat :=
  let ids := r.ids.take r.n
  if i ∈ ids ∧ j ∈ ids then some (r.block.lam (ids.idxOf i) (ids.idxOf j)) else none

/-- An entry of η by identity. -/
def Rec.etaOf (r : Rec) (i : Nat) : Option Nat :=
  let ids := r.ids.take r.n
  if i ∈ ids then some (r.block.eta (ids.idxOf i)) else none

/-- x + y, or x − y, exactly and rounded once to nearest even. -/
def roundedSum (sub : Bool) (x y : Nat) : Nat :=
  fp32.encode .rne false ((fp32.decode x).add (if sub then (fp32.decode y).negate else fp32.decode y))

/-- A copied entry: a NaN becomes the canonical one (R393). -/
def copied (x : Nat) : Nat := if f32IsNan x then 0x7FC00000 else x

/-- GADD's entry from those of its sources (R394). -/
def sumEntry (sub : Bool) : Option Nat → Option Nat → Nat
  | some x, some y => roundedSum sub x y
  | some x, none => copied x
  | none, some y => if sub ∧ !f32IsNan y then (y + 2 ^ 31) % 2 ^ 32 else copied y
  | none, none => 0

/-- GDAMP's entry: ((256 − D)·a + D·b)/256, rounded once; with D = 0 the entry of ga (R396). -/
def blendEntry (d a b : Nat) : Nat :=
  if d = 0 then copied a
  else fp32.encode .rne false
    ((((FpVal.ofInt (256 - d)).mul (fp32.decode a)).add ((FpVal.ofInt d).mul (fp32.decode b))).mul (.fin false 1 (-8)))

/-- x / y, correctly rounded. -/
def roundedQuot (x y : Nat) : Nat := fp32.encode .rne false ((fp32.decode x).div (fp32.decode y))

/-- x − f·y, rounded once. -/
def fusedSub (x f y : Nat) : Nat :=
  fp32.encode .rne false ((fp32.decode x).add ((fp32.decode f).mul (fp32.decode y)).negate)

/-- A pivot passes: p > TOL (R398). -/
def pivotOk (tol p : Nat) : Bool := (fp32.decode p).cmp (fp32.decode tol) == some 1

/-- The step of R398 on position e: what the positions R that remain hold after it. -/
def Block.step (b : Block) (e : Nat) (R : List Nat) : Block where
  lam i j :=
    if i ∈ R ∧ j ∈ R then
      fusedSub (b.lam (Nat.min i j) (Nat.max i j)) (roundedQuot (b.lam (Nat.min i j) e) (b.lam e e)) (b.lam e (Nat.max i j))
    else b.lam i j
  eta i := if i ∈ R then fusedSub (b.eta i) (roundedQuot (b.lam i e) (b.lam e e)) (b.eta e) else b.eta i

/-- The steps on several positions in turn; the first failing pivot with its position, if one fails (R398). -/
def Block.steps (tol : Nat) : List (Nat × List Nat) → Block → Except (Nat × Nat) Block
  | [], b => .ok b
  | (e, R) :: es, b => if pivotOk tol (b.lam e e) then Block.steps tol es (b.step e R) else .error (b.lam e e, e)

/-- GELIM's order: each position with keep bit 0, and the positions that remain after it (R398). -/
def elimPlan (n : Nat) (keep : BitVec 7) : List (Nat × List Nat) :=
  ((List.range n).filter fun e => !keep.getLsbD e).map fun e =>
    (e, (List.range n).filter fun i => i != e && (keep.getLsbD i || decide (e < i)))

/-- GMEAN's forward pass: each position, and those above it (R399). -/
def meanPlan (n : Nat) : List (Nat × List Nat) :=
  (List.range n).map fun e => (e, (List.range n).filter fun i => decide (e < i))

/-- GMEAN's back substitution for position e, given the means of the positions above it (R399). -/
def meanAt (b : Block) (n e : Nat) (mu : Nat → Nat) : Nat :=
  roundedQuot (((List.range n).filter fun j => decide (e < j)).foldl (fun t j => fusedSub t (b.lam e j) (mu j)) (b.eta e))
    (b.lam e e)

/-- GRES's result (R397): the largest |a − b| over the upper triangle and η; the canonical NaN if any is NaN; 0 over none. -/
def residual (a b : Block) (n : Nat) : Nat :=
  let dif := fun x y => fp32.encode .rne false ((fp32.decode x).add (fp32.decode y).negate).abs
  let rs := ((List.range n).flatMap fun i => ((List.range n).filter fun j => decide (i ≤ j)).map fun j => dif (a.lam i j) (b.lam i j))
    ++ (List.range n).map fun i => dif (a.eta i) (b.eta i)
  if rs.any f32IsNan then 0x7FC00000 else rs.foldl Nat.max 0

end Sys2Proof.Machine
end

