-- ==== Sys2Proof/Safety/Homes.lean ====
section
/-!
DEFINITION. Object requests at their homes, for claims: the table of conditions and effects of R118 to R123, the untyped atomics
of R125, a request that a home is about to take, and the reply that leaves.
-/
namespace Sys2Proof.Machine

/-- The word at a place of memory. -/
def wordAt (m : List Host.Cell) (p : Nat) : Word := word (natOfBytes (memBytes m p 8))

/-- A condition and an effect on the words of an object: which words are set, and the result (R118 to R123). -/
structure ObjRule where
  holds  : Bool
  sets   : List (Nat × Word)
  result : Word
  deriving DecidableEq, Repr

/-- The type, condition and effect of an operation of counters, locks' LGIVE, conditions and cells, from the words d0 and d1 and the
operand. -/
def objRule (op : Nat) (d0 d1 x : Word) : Option (Nat × ObjRule) :=
  let full := decide (d1.toNat % 2 = 1)
  match op with
  | 0x2B => some (1, ⟨true, [(0, d0 + x)], d0⟩)
  | 0x2C => some (1, ⟨decide (0 ≤ (d0 - x).toInt), [], d0⟩)
  | 0x2D => some (1, ⟨true, [(0, x)], d0⟩)
  | 0x32 => if d0 = d1 then none else some (4, ⟨true, [(1, d1 + 1)], d1⟩)
  | 0x35 => some (6, ⟨decide (d0.toNat % 2 = 1), [(0, 0)], 0⟩)
  | 0x36 => some (6, ⟨true, [(0, 1), (1, d1 + 1)], 0⟩)
  | 0x37 => some (6, ⟨true, [(1, d1 + 1)], 0⟩)
  | 0x38 => some (7, ⟨full, [(1, 0)], d0⟩)
  | 0x39 => some (7, ⟨!full, [(0, x), (1, 1)], 0⟩)
  | 0x3A => some (7, ⟨full, [], d0⟩)
  | _ => none

/-- The word that an effect leaves in word k. -/
def ObjRule.wordOf (r : ObjRule) (k : Nat) (old : Word) : Word := ((r.sets.find? fun x => x.1 == k).map (·.2)).getD old

/-- The new word of an untyped atomic (R125), over the values that w bits hold. -/
def atomicResult (op w old v expect : Nat) : Nat :=
  let n := fun x : Nat => if x < 2 ^ (w - 1) then (x : Int) else (x : Int) - 2 ^ w
  match op with
  | 0x40 => if old + v < 2 ^ w then old + v else old + v - 2 ^ w
  | 0x41 => v
  | 0x42 => if old = expect then v else old
  | 0x43 => if n v ≤ n old then old else v
  | 0x44 => if n old ≤ n v then old else v
  | 0x45 => (BitVec.ofNat w old &&& BitVec.ofNat w v).toNat
  | 0x46 => (BitVec.ofNat w old ||| BitVec.ofNat w v).toNat
  | _ => (BitVec.ofNat w old ^^^ BitVec.ofNat w v).toNat

/-- A slice is about to take the only request of its object port, which a context sent: no earlier access of its context goes first and
no OINIT of its sector awaits its parent's home; its page and those of a queue's copy are at hand, and its own grants what it needs; no
line of theirs moves; no fence drops the request; the object is not poisoned; and memory is canonical (R71 to R73, R85, R114, R115, R297, R385, R411, R428). -/
structure State.AtHome (s : State) (r : ObjReq) : Prop where
  idle   : s.arg.what = 0 ∧ (s.slice s.arg.who).objAt ≤ s.cycle
  only   : (s.slice s.arg.who).objQ = [r]
  home   : homeSlice r.addr = s.arg.who
  named  : r.op ≠ 0
  ahead  : s.objectWaits s.arg.who r = false
  near   : ∀ a ∈ globalLines (r.addr :: r.copyAsks (s.object r.addr)),
             s.mustWalk (homeDie a) (bits a 44 0) = false ∧ s.lineMoving (homeSlice a) (bits a 44 0 / 64) = false
  page   : s.pageOk r = true
  fence  : s.fencedReq r = false
  clean  : s.sectorOf r.addr ∉ s.poison ∧ s.objectPoisoned r.addr (s.object r.addr) = false
  align  : r.op < 0x40 → r.addr.toNat % 64 = 0
  plain  : r.ctxid < 0xFFFFFF00 ∧ r.eng = 0 ∧ r.parts = []
  canon  : memWf s.mem

/-- Writes to some sectors leave the place of an address where it is: the entry of its page does not stand in them. -/
def State.Steady (s : State) (a : Word) (sectors : List Nat) : Prop :=
  ∀ m : List Host.Cell, (∀ x, x / 64 ∉ sectors → memGet m x = memGet s.mem x) → ({ s with mem := m } : State).placeOf a = s.placeOf a

/-- The sectors of an object of n member sectors: the header's, then the members' in ascending order (R84). -/
def State.laidSectors (s : State) (a : Word) (n : Nat) : List Nat := (List.range (n + 1)).map fun i => s.sectorOf (a + word (64 * i))

/-- The sectors of an object of n member sectors are different ones, and writes to them leave them where they are. -/
def State.Laid (s : State) (a : Word) (n : Nat) : Prop :=
  (s.laidSectors a n).Nodup ∧ ∀ i, i ≤ n → s.Steady (a + word (64 * i)) (s.laidSectors a n)

/-- Eight words are the image of an object of a type, but for a barrier's member sectors and its parent (R88 to R93, R115). -/
def Image (die typ : Nat) (d : Nat → Word) : Prop :=
  d 7 = 0 ∧
  ((typ = 1 ∧ ∀ k, 1 ≤ k → k < 7 → d k = 0) ∨
   (typ = 2 ∧ 1 ≤ (d 0).toNat ∧ (d 0).toNat ≤ 4096 ∧ (d 1).toNat / 2 ^ 32 = (d 1).toNat % 2 ^ 32 ∧ d 2 = 0 ∧
     (d 3).toNat < 2 ^ 57 ∧ (d 4).toNat < 4096 ∧ (d 3 = 0 → d 4 = 0) ∧ d 5 = 0 ∧ d 6 = 0) ∨
   (typ = 4 ∧ d 0 = d 1 ∧ ∀ k, 2 ≤ k → k < 7 → d k = 0) ∨
   (typ = 5 ∧ 1 ≤ (d 1).toNat % 2 ^ 32 ∧ (d 1).toNat % 2 ^ 32 ≤ 65536 ∧ (d 1).toNat / 2 ^ 32 ≤ 4 ∧
     (d 0).toNat / 2 ^ 46 = Config.moduleNumber ∧ (d 0).toNat / 2 ^ 45 % 2 = die ∧
     (d 0).toNat % ([8, 16, 32, 64, 64].getD ((d 1).toNat / 2 ^ 32) 0) = 0 ∧ d 2 = d 3 ∧ d 4 = 0 ∧ d 5 = 0 ∧ d 6 = 0) ∨
   (typ = 6 ∧ (d 0).toNat < 2 ∧ ∀ k, 2 ≤ k → k < 7 → d k = 0) ∨
   (typ = 7 ∧ (d 1).toNat < 2 ∧ ∀ k, 2 ≤ k → k < 7 → d k = 0))

/-- The sectors that would become a barrier's member sectors are untyped, and in the header's page (R115). -/
def State.MembersFree (s : State) (a : Word) (n : Nat) : Prop :=
  bits a 44 0 / 2 ^ 25 = (bits a 44 0 + 64 * n) / 2 ^ 25 ∧ ∀ i, i < n → s.tag (s.sectorOf (a + word (64 * (i + 1)))) = 0

/-- A sector has become an object of a type: its words stand but for a condition's SIGNALS, which is 0, a barrier's member sectors hold
zeros with tag 3, and nothing else has changed (R115). -/
def State.Typed (s t : State) (a : Word) (typ n : Nat) : Prop :=
  let p := s.placeOf a
  t.tag (p / 64) = typ ∧ (∀ k, k < 8 → wordAt t.mem (p + 8 * k) = if typ = 6 ∧ k = 1 then 0 else wordAt s.mem (p + 8 * k)) ∧
    (∀ i, i < n → t.tag (s.sectorOf (a + word (64 * (i + 1)))) = 3 ∧ ∀ b, b < 64 → memGet t.mem (s.placeOf (a + word (64 * (i + 1))) + b) = 0) ∧
    (∀ x, x / 64 ∉ s.laidSectors a n → memGet t.mem x = memGet s.mem x) ∧ ∀ y, y ∉ s.laidSectors a n → t.tag y = s.tag y

/-- A member's arrival at a barrier has been made: its lead counter goes up, and as long as every member has arrived the phase completes:
the lead counters go down, LOCAL up, and PHASE too without a parent; with one, LOCAL runs at most 3 phases ahead and a request
goes to the parent's home for each (R106 to R108). -/
def State.Arrived (s t : State) (a : Word) (m : Nat) : Prop :=
  let o := s.object a
  let u := t.object a
  let ls := o.leads.set m (o.lead m + 1)
  let least := ls.foldl Nat.min 3
  let n := if o.parent = 0 then least else Nat.min least (3 - (o.local_ - o.phase).toNat)
  u.tag = 2 ∧ u.leads = ls.map (fun l => l - n) ∧ u.local_ = o.local_ + BitVec.ofNat 32 n ∧
    u.phase = o.phase + (if o.parent = 0 then BitVec.ofNat 32 n else 0) ∧ u.d 0 = o.d 0 ∧ u.d 3 = o.d 3 ∧ u.d 4 = o.d 4 ∧
    (u.d 2).toNat = (ls.filter fun l => decide (n < l)).length ∧
    (0 < n → o.parent ≠ 0 → bits o.parent 55 46 = Config.moduleNumber →
      ∃ x ∈ t.net, ∃ q : ObjReq, x.body = .request q ∧ q.op = 0x30 ∧ q.addr = o.parent ∧ q.operand = a ∧ q.ctxid = 0xFFFFFFFF ∧
        q.expect = word (bits (o.d 4) 11 0) ∧
        ∃ e ∈ t.agenda, e.ev = .objectRequestArrival ∧ e.arg.who = homeSlice o.parent ∧ e.arg.what = x.id + 1)

/-- A reply to a request is on its way to its context (R94): its code (0 DONE, 1 WOULD_WAIT, 2 ARRIVED, 3 REFUSED, 4 REGISTERED),
its value and its cause. -/
def State.Answered (t : State) (r : ObjReq) (code : Nat) (value : Word) (cause : Nat) : Prop :=
  ∃ m ∈ t.net, m.body = .objReply r code value cause ∧
    ∃ n ∈ t.agenda, n.ev = .objectReply ∧ n.arg.who = r.ctxid ∧ n.arg.what = m.id

/-- Memory but for some sectors, and every tag, stand. -/
def State.OnlySectors (s t : State) (sectors : List Nat) : Prop :=
  (∀ x, x / 64 ∉ sectors → memGet t.mem x = memGet s.mem x) ∧ ∀ y, t.tag y = s.tag y

end Sys2Proof.Machine
end

