-- ==== Sys2Proof/Certificates/Slice0/Obligations.lean ====
section
/-!
DEFINITION. The statements about this model. A context "completes" a bundle as `Completed` says (Sys2Proof/Safety.lean).
-/
open Sys2Proof Sys2Proof.Machine

/-- R186, R200 to R209: a scalar integer or floating-point word whose registers are not pending answers a next state with the table's
result in its destination (DIV, DIVU, REM and REMU: pending for 36 cycles, FDIV and FSQRT for 28), the next bundle following and nothing
else changed. -/
def Obligations.ScalarResults : Prop :=
  ∀ (s : State) (i : Instr) (d : SReg) (x : Word) (l : Nat),
    intResult i (s.ctx s.cur) = some (d, x, l) ∨ floatResult i (s.ctx s.cur) = some (d, x, l) →
    s.ClearFor i → s.Unmarked → ∃ t : State, exec i s = .next t ∧ Completed s t (timed l [setS d x]) s.nextPc

/-- R222 to R239: a vector word completes with one write of its destination whose every lane is the rule's; inactive lanes keep
their values. The model's choices: U's reading of VSUB, VMUL and VFMA (notes/assumptions/68.md), VEXP2's value (13.md), and the lanes that a
narrowing VCVT keeps (15.md). -/
def Obligations.VectorLaneResults : Prop :=
  ∀ (s : State) (i : Instr) (d : VReg) (w l : Nat) (f : Nat → Nat), vecResult i (s.ctx s.cur) = some (d, w, l, f) →
    s.ClearFor i → s.Unmarked →
      ∃ t v, exec i s = .next t ∧ Completed s t (timed l [setV d v]) s.nextPc ∧ ∀ k, k < 512 / w → lane w v k = f k

/-- R227: VSEL completes with every lane of its destination taken from va where the named mask's bit is 1, and from vb otherwise; it does
not read vd. -/
def Obligations.SelectTakesEveryLane : Prop :=
  ∀ (s : State) (o : VArgs), let c := s.ctx s.cur
    (s.ClearFor (.vsel o) → s.Unmarked →
      ∃ t v, exec (.vsel o) s = .next t ∧ Completed s t (timed 0 [setV o.vd v]) s.nextPc ∧ ∀ k, k < 512 / o.ty.width →
        lane o.ty.width v k = if (c.getM o.m).getLsbD k then lane o.ty.width (c.getV o.va) k else lane o.ty.width (c.getV o.vb) k) ∧
    (o.vd ≠ o.va → o.vd ≠ o.vb → RegName.v o.vd ∉ bundleReads (.vsel o) none)

/-- R221, R226, R228 to R231, R237: VCMP and MOP write a mask whose bits at or above the lane count are 0; VEXT, VREDADD and
VREDMAX write a scalar; UNPK3 writes 60 trits, four zero lanes and the mask of its illegal bytes. -/
def Obligations.MaskScalarAndUnpackResults : Prop :=
  (∀ (s : State) (i : Instr) (d : MReg) (n : Nat) (f : Nat → Bool), maskResult i (s.ctx s.cur) = some (d, n, f) →
    s.ClearFor i → s.Unmarked → ∃ t x, exec i s = .next t ∧ Completed s t (timed 0 [setM d x]) s.nextPc ∧
      ∀ k, k < 64 → x.getLsbD k = (decide (k < n) && f k)) ∧
  (∀ (s : State) (i : Instr) (d : SReg) (x : Word) (l : Nat), reduceResult i (s.ctx s.cur) = some (d, x, l) →
    s.ClearFor i → s.Unmarked → ∃ t : State, exec i s = .next t ∧ Completed s t (timed l [setS d x]) s.nextPc) ∧
  (∀ (s : State) (o : VArgs), s.ClearFor (.unpk3 o) → s.Unmarked →
    ∃ t v x, exec (.unpk3 o) s = .next t ∧ Completed s t (timed 0 [setV o.vd v, setM o.m x]) s.nextPc ∧
      (∀ k, k < 64 → lane 8 v k =
        let b := lane 8 ((s.ctx s.cur).getV o.va) (12 * (o.fn.toNat % 8) + k / 5)
        if k < 60 ∧ b ≤ 242 then (((trits b).getD (k % 5) 0) % 256).toNat else 0) ∧
      ∀ k, k < 64 → x.getLsbD k =
        (decide (k < 12) && decide (242 < lane 8 ((s.ctx s.cur).getV o.va) (12 * (o.fn.toNat % 8) + k))))

/-- R394 to R396: on well-formed records GADD leaves the sum (or difference) over the ascending union of the scopes, GEXT the
message over the scope of gb, GDAMP the blend under ga's DAMP; each result is a whole, mirrored record with ga's TAG. -/
def Obligations.GaussianMessagesCombine : Prop :=
  ∀ (s : State) (gd ga gb : QReg), let c := s.ctx s.cur
    let a := recOf c ga
    let b := recOf c gb
    a.ok → b.ok → s.Unmarked →
      (∀ sub, s.ClearFor (.gadd gd ga gb sub) →
        let u := mergeIds 14 (a.ids.take a.n) (b.ids.take b.n)
        u.length ≤ 7 → ∃ t ws, exec (.gadd gd ga gb sub) s = .next t ∧ Completed s t (timed 0 ws) s.nextPc ∧
          IsRecord ws gd a.head u
            ⟨fun p q => sumEntry sub (a.lamOf (u.getD p 0) (u.getD q 0)) (b.lamOf (u.getD p 0) (u.getD q 0)),
             fun p => sumEntry sub (a.etaOf (u.getD p 0)) (b.etaOf (u.getD p 0))⟩) ∧
      (s.ClearFor (.gext gd ga gb) → (∀ x ∈ a.ids.take a.n, x ∈ b.ids.take b.n) →
        let u := b.ids.take b.n
        ∃ t ws, exec (.gext gd ga gb) s = .next t ∧ Completed s t (timed 0 ws) s.nextPc ∧
          IsRecord ws gd a.head u
            ⟨fun p q => ((a.lamOf (u.getD p 0) (u.getD q 0)).map copied).getD 0,
             fun p => ((a.etaOf (u.getD p 0)).map copied).getD 0⟩) ∧
      (s.ClearFor (.gdamp gd ga gb) → a.ids.take a.n = b.ids.take b.n →
        let w := a.head / 256 % 256
        ∃ t ws, exec (.gdamp gd ga gb) s = .next t ∧ Completed s t (timed 0 ws) s.nextPc ∧
          IsRecord ws gd a.head (a.ids.take a.n)
            ⟨fun p q => blendEntry w (a.block.lam p q) (b.block.lam p q), fun p => blendEntry w (a.block.eta p) (b.block.eta p)⟩)

/-- R397 to R400: GRES's largest difference (40 cycles), GELIM's Schur complement over the kept positions (48 cycles) and
GMEAN's solution of Λ·μ = η (40 cycles) become pending results when no pivot fails. GELIM and GMEAN raise SCOPE_MISMATCH on an
ill-formed record (R393), and on a failing pivot SINGULAR_BLOCK with the pivot's code and position, their destination not
pending. -/
def Obligations.GaussianBlocksSolve : Prop :=
  ∀ (s : State) (gd ga gb : QReg) (r : SReg) (keep : BitVec 7), let c := s.ctx s.cur
    let a := recOf c ga
    let b := recOf c gb
    (a.ok → s.Unmarked →
      (b.ok → a.ids.take a.n = b.ids.take b.n → s.ClearFor (.gres r ga gb) →
        ∃ t : State, exec (.gres r ga gb) s = .next t ∧
          Completed s t (timed 40 [setS r (word (residual a.block b.block a.n))]) s.nextPc) ∧
      (∀ x, s.ClearFor (.gelim gd ga keep) → Block.steps c.gtol.toNat (elimPlan a.n keep) a.block = .ok x →
        let left := (List.range a.n).filter fun i => keep.getLsbD i
        ∃ t ws, exec (.gelim gd ga keep) s = .next t ∧ Completed s t (timed 48 ws) s.nextPc ∧
          IsRecord ws gd a.head (left.map fun i => a.ids.getD i 0)
            ⟨fun p q => copied (x.lam (left.getD p 0) (left.getD q 0)), fun p => copied (x.eta (left.getD p 0))⟩) ∧
      (∀ x, s.ClearFor (.gmean gd ga) → Block.steps c.gtol.toNat (meanPlan a.n) a.block = .ok x →
        ∃ t ws mu, exec (.gmean gd ga) s = .next t ∧ Completed s t (timed 40 ws) s.nextPc ∧
          (∀ e, e < a.n → mu e = meanAt x a.n e mu) ∧
          IsRecord ws gd a.head (a.ids.take a.n) ⟨fun p q => copied (a.block.lam p q), mu⟩)) ∧
    (s.ClearFor (.gelim gd ga keep) →
      (a.ok = false → ∃ x, exec (.gelim gd ga keep) s = .next (s.raise (Cause.scopeMismatch, x)) ∧
        exec (.gmean gd ga) s = .next (s.raise (Cause.scopeMismatch, x)) ∧ bits x 31 0 = 1) ∧
      (∀ p e, a.ok → Block.steps c.gtol.toNat (elimPlan a.n keep) a.block = .error (p, e) →
        exec (.gelim gd ga keep) s = .next (s.raise (Cause.singularBlock, word (p + e * 2 ^ 32)))) ∧
      (∀ p e, a.ok → Block.steps c.gtol.toNat (meanPlan a.n) a.block = .error (p, e) →
        exec (.gmean gd ga) s = .next (s.raise (Cause.singularBlock, word (p + e * 2 ^ 32)))))

/-- R14, R18, R215: the tail of a pair takes effect with its head, with the same effect on the registers as they stood before the
bundle that the lone word has; a cause of an arithmetic word is raised instead of its effect. NOPC and NOPA change no state. -/
def Obligations.TailTakesEffectWithHead : Prop :=
  (∀ (s : State) (e : Effect), s.HeadReady .nopc e → s.Unmarked →
    ∃ t : State, exec .nopc s = .next t ∧ Completed s t e s.nextPc) ∧
  (∀ (s : State), s.Unmarked → ∃ t : State, exec .nopa s = .next t ∧ Completed s t Effect.none s.nextPc) ∧
  (∀ (s : State) (i : Instr), isArith i = true → s.ClearFor i →
    (∀ e, effectOf i (s.ctx s.cur) = .ok e → s.Unmarked → ∃ t : State, exec i s = .next t ∧ Completed s t e s.nextPc) ∧
    (∀ x, effectOf i (s.ctx s.cur) = .error x → exec i s = .next (s.raise x) ∧
      (s.bun.tail = some i → (s.ctx s.cur).Clear (bundleReads .nopc s.bun.tail ++ bundleWrites .nopc s.bun.tail) →
        exec .nopc s = .next (s.raise x))))

/-- R18, R187: a bundle that reads a pending register raises PENDING_READ, and one that writes one PENDING_WRITE, with the lowest
such register's file and number in TVAL; a read comes first. So does every arithmetic word, and every head, alone or with its tail, once
it issues (R192) and its privilege and control register's number pass (notes/assumptions/23.md). The model's choices: which registers
a narrowing VCVT (15.md), and UNPK3, VREDADD and VREDMAX under m1 to m3 (67.md), read and write. -/
def Obligations.PendingRegistersTrap : Prop :=
  ∀ (s : State) (i : Instr) (r : RegName), let c := s.ctx s.cur
    let first := fun (rs : List RegName) => r ∈ rs ∧ ∀ q ∈ rs, (∃ p ∈ c.pend, p.reg = q) → r.code ≤ q.code
    let rd := bundleReads i s.bun.tail ++ c.impliedReads i
    let wr := bundleWrites i s.bun.tail
    let raised := fun (x : Trap) => ∃ u : State, exec i s = .next (u.raise x) ∧ u.cur = s.cur ∧ u.ctxs = s.ctxs ∧ u.cores = s.cores ∧
      u.mem = s.mem
    (∃ p ∈ c.pend, p.reg = r) →
    (isArith i = true → (first i.reads → exec i s = .next (s.raise (Cause.pendingRead, word r.code))) ∧
      (c.Clear i.reads → first i.writes → exec i s = .next (s.raise (Cause.pendingWrite, word r.code)))) ∧
    (isHead i = true → s.ReachesPending i → (first rd → raised (Cause.pendingRead, word r.code)) ∧
      (c.Clear rd → first wr → raised (Cause.pendingWrite, word r.code)))

/-- R15, R211 to R215: a branch, LOOP, jump, call or NOPC whose bundle is clear completes with its own write and its tail's
effect; the next bundle is the target when it transfers and the target passes, and the following one when it does not. That a transfer's
effects stand from its turn, before its target is checked, is the model's choice (notes/assumptions/10.md). -/
def Obligations.ControlFlowCompletes : Prop :=
  ∀ (s : State) (i : Instr) (e : Effect) (taken byReg : Bool) (target : Word) (ws : List RegWrite),
    flowOf i s = some (taken, target, byReg, ws) → s.HeadReady i e → s.Unmarked →
      (taken = false → ∃ t : State, exec i s = .next t ∧ Completed s t (Effect.join (Effect.turn ws) e) s.nextPc) ∧
      (taken = true → s.TargetOk s.cur byReg (s.ctx s.cur).prv target →
        ∃ t : State, exec i s = .next t ∧ Completed s t (Effect.join (Effect.turn ws) e) target)

/-- R184: a taken transfer's target is checked at the slot's fetch, 8 cycles on, in the rule's order. A failure raises its cause with the
target in TVAL, the bundle having no effect; a target whose sector is absent parks the slot, nothing of the bundle having taken effect.
That the effects stand until then, to be put back, and that the cause's times count from the bundle's turn is the model's choice
(notes/assumptions/10.md). -/
def Obligations.TransferTargetsAreChecked : Prop :=
  (∀ (s : State) (i : Instr) (e : Effect) (byReg : Bool) (target : Word) (ws : List RegWrite),
    flowOf i s = some (true, target, byReg, ws) → s.HeadReady i e → let c := s.ctx s.cur
      ∃ (t : State) (u : Undo), exec i s = .next t ∧ (t.ctx s.cur).undo = some u ∧ u.xfer.target = target ∧ u.xfer.byReg = byReg ∧
        u.xfer.rft = false ∧ u.at_ = s.cycle ∧ u.pc = c.pc ∧ (t.ctx s.cur).latch = none ∧ (t.ctx s.cur).pc = target ∧
        (let b := (t.ctx s.cur).undone u
         RegsAfter c b [] ∧ b.pc = c.pc ∧ b.prv = c.prv ∧ b.uh = c.uh ∧ b.sh = c.sh ∧ b.wcount = c.wcount) ∧
        ∃ d ∈ t.agenda, d.ev = .fetch ∧ d.arg.who = s.cur ∧ d.at_ = s.cycle + 8) ∧
  (∀ (s : State) (u : Undo), let g := s.arg.who
    let c := s.ctx g
    let a := u.xfer.target
    let mayFetch := (if u.xfer.rft then u.pprv else u.prv) = true ∨ Rights.cover (s.plbRights (s.at g) c.domain a) 4 = true
    let found := cacheFind (s.core (s.at g)).l1i a.toNat
    let raises := fun cause => exec .fetch s = .next ((s.setCtx g (c.undone u)).raiseFrom g (cause, a) u.at_)
    c.undo = some u → (c.st = .running ∨ c.st = .parked) → c.latch = none → c.fills = [] → c.trap = none → c.kill = none →
    c.wait ≠ .drain →
      (bits a 63 56 ≠ 0 → raises Cause.misaligned) ∧
      (bits a 63 56 = 0 → u.xfer.byReg = true → a.toNat % 4 ≠ 0 → raises Cause.badTarget) ∧
      (bits a 63 56 = 0 → (u.xfer.byReg = true → a.toNat % 4 = 0) →
        (¬ mayFetch → raises Cause.protection) ∧
        (mayFetch → found = none → ∃ t : State, exec .fetch s = .next t ∧ (t.ctx g).wait = .fetchFill ∧ (t.ctx g).st = .parked ∧
          (t.ctx g).pc = u.pc ∧ (t.ctx g).transfer = some u.xfer ∧ (t.ctx g).latch = none ∧ RegsAfter c (t.ctx g) u.old) ∧
        (∀ x, mayFetch → found = some x → let cl := Code.cls (sectorWord x.data a.toNat)
          (cl = 2 ∨ cl = 3 → raises Cause.badTarget) ∧ (cl = 0 → a.toNat % 8 ≠ 0 → raises Cause.misalignedPair))))

/-- R216, R217: MFC completes with the control register's value in its destination; MTC leaves the value written, less its reserved bits
(R5, R218, R368 to R370), in the control register, and every other one but WDOG (whose COUNT a bundle resets, R376) reads as before;
no other context and no access issued before changes. Both check the number in R217's order: ILLEGAL_OP for a number without a register
and for MTC to a read-only one, then PRIVILEGED for a user, then DOMAIN for a domain outside the partition; a nonzero reserved field is a
fault of decoding with the word in TVAL. The model's choices: what MTC leaves in TCAUSE and TSTATE (notes/assumptions/18.md) and in COUNT
(52.md), the COUNT that MFC reads (69.md), and that the first three checks come before the pending registers (23.md). -/
def Obligations.ControlRegistersReadAndWrite : Prop :=
  (∀ (s : State) (d : SReg) (num : BitVec 12) (e : Effect), s.HeadReady (.mfc d num) e → s.Unmarked →
    (∃ a, ctlAccess num.toNat (s.ctx s.cur).uh = some a ∧ ((s.ctx s.cur).prv = true ∨ a.userRead = true)) →
      ∃ t : State, exec (.mfc d num) s = .next t ∧
        Completed s t (Effect.join (Effect.turn [setS d (s.readCtl s.cur num.toNat)]) e) s.nextPc) ∧
  (∀ (s : State) (num : BitVec 12) (a : SReg) (e : Effect), s.HeadReady (.mtc num a) e → s.Unmarked →
    (∃ k, ctlAccess num.toNat (s.ctx s.cur).uh = some k ∧
      (k.userWrite = true ∨ ((s.ctx s.cur).prv = true ∧ k.supWrite = true))) →
    (num = 0x003 → s.domainOk (s.at s.cur) (bits ((s.ctx s.cur).getS a) 15 0) = true) →
      ∃ t : State, exec (.mtc num a) s = .next t ∧ RegsAfter (s.ctx s.cur) (t.ctx s.cur) e.now ∧ (t.ctx s.cur).pc = s.nextPc ∧
        (t.ctx s.cur).pend = (s.ctx s.cur).pend ++ pendOf e s.cycle ∧ SameMemory s t ∧ SameUnits s t ∧
        t.readCtl s.cur num.toNat = ctlKept num.toNat ((s.ctx s.cur).getS a) (s.readCtl s.cur num.toNat) ∧
        ∀ k : Nat, k ≠ num.toNat → k ≠ 0x022 → t.readCtl s.cur k = s.readCtl s.cur k) ∧
  (∀ (w : Code) (al : Bool), Code.cls w = 1 → Code.side w = false → w.extractLsb' 12 4 = 0 →
    (Code.opc w = 0x70 → decodeBundle al [w] = .ok (⟨Code.mark w, .mfc (w.extractLsb' 16 5).toFin (w.extractLsb' 0 12), none⟩, 1)) ∧
    (Code.opc w = 0x71 → decodeBundle al [w] = .ok (⟨Code.mark w, .mtc (w.extractLsb' 0 12) (w.extractLsb' 16 5).toFin, none⟩, 1))) ∧
  (∀ (s : State) (num : BitVec 12) (r : SReg), let c := s.ctx s.cur
    (ctlAccess num.toNat c.uh = none →
      exec (.mfc r num) s = .next (s.raise (Cause.illegalOp, word num.toNat)) ∧
      exec (.mtc num r) s = .next (s.raise (Cause.illegalOp, word num.toNat))) ∧
    (∀ k, ctlAccess num.toNat c.uh = some k → k.supWrite = false → k.userWrite = false →
      exec (.mtc num r) s = .next (s.raise (Cause.illegalOp, word num.toNat))) ∧
    (∀ k, ctlAccess num.toNat c.uh = some k → c.prv = false →
      (k.userRead = false → exec (.mfc r num) s = .next (s.raise (Cause.privileged, word num.toNat))) ∧
      (k.supWrite = true → k.userWrite = false →
        exec (.mtc num r) s = .next (s.raise (Cause.privileged, word num.toNat)))) ∧
    (∀ e, num = 0x003 → c.prv = true → s.HeadReady (.mtc num r) e → s.domainOk (s.at s.cur) (bits (c.getS r) 15 0) = false →
      exec (.mtc num r) s = .next (s.raise (Cause.domain, c.getS r)))) ∧
  (∀ (w : Code) (al : Bool), Code.cls w = 1 → Code.side w = false → (Code.opc w = 0x70 ∨ Code.opc w = 0x71) →
    w.extractLsb' 12 4 ≠ 0 → decodeBundle al [w] = .error (.illegalOp (w.setWidth 64)))

/-- R366, R367, R372: TRAP takes SOFT_TRAP with its code, and any precise cause of a context that can take it enters the
handler: TRAPPC, TCAUSE, TVAL, PPRV and PUH saved, the mode and the pc changed, no register or memory written. -/
def Obligations.TrapEntryEntersHandler : Prop :=
  (∀ (s : State) (cause : Nat) (x : Word), (s.ctx s.cur).EntersNow cause → let t := s.raise (cause, x)
    Entered (s.ctx s.cur) (t.ctx s.cur) cause x (s.ctx s.cur).pc false s.cycle ∧ SameMemory s t ∧ SameUnits s t) ∧
  (∀ (s : State) (imm : Imm16),
    (s.ctx s.cur).Clear (bundleReads (.trap imm) s.bun.tail ++ bundleWrites (.trap imm) s.bun.tail) →
      exec (.trap imm) s = .next (s.raise (Cause.softTrap, imm.zvalue)) ∧
      ((s.ctx s.cur).EntersNow Cause.softTrap →
        Entered (s.ctx s.cur) ((s.raise (Cause.softTrap, imm.zvalue)).ctx s.cur) Cause.softTrap imm.zvalue (s.ctx s.cur).pc
          false s.cycle))

/-- R366: a cause that is not fatal goes to exactly one place: inside a supervisor handler to the kill sequence; inside a user handler to
the supervisor handler, which the trap escalates to; in user mode with its TDELEG bit and TVEC_U to the user handler; otherwise to the
supervisor handler; and with TVEC_S = 0 to the kill sequence, where the supervisor handler is chosen. -/
def Obligations.CausesGoToOnePlace : Prop :=
  ∀ (s : State) (cause : Nat) (x : Word), let c := s.ctx s.cur
    let d := (s.raise (cause, x)).ctx s.cur
    let killed := (∃ k, d.kill = some k ∧ k.cause = cause ∧ k.tval = x) ∧ d.pc = c.pc ∧ d.prv = c.prv
    let enters := fun (e : Ctx) (super : Bool) => e.kill = none ∧ e.st = .running ∧ e.prv = super ∧
      e.pc = (if super then c.tvecS else c.tvecU).setWidth 64 + word (64 * cause)
    cause < 2 ^ 8 → Cause.fatal cause = false → c.kill = none → c.st = .running → c.twin = none → c.pend = [] →
      (c.sh = true → killed) ∧
      (c.sh = false → c.uh = true → c.tvecS ≠ 0 → d.wait = .escalation ∧ d.kill = none ∧ ∀ arg : EvArg, arg.who = s.cur →
        ∃ u : State, exec .escalationLogged { s.raise (cause, x) with arg := arg } = .next u ∧ enters (u.ctx s.cur) true ∧
          (u.ctx s.cur).sh = true ∧ (u.ctx s.cur).tcause.getLsbD 9 = true) ∧
      (c.sh = false → c.uh = false → let user := c.prv = false ∧ c.tdeleg.getLsbD cause = true ∧ c.tvecU ≠ 0
        (user → enters d false ∧ d.uh = true ∧ d.sh = false) ∧
        (¬ user → c.tvecS ≠ 0 → enters d true ∧ d.sh = true)) ∧
      (c.sh = false → c.tvecS = 0 → c.uh = true ∨ c.prv = true ∨ c.tdeleg.getLsbD cause = false ∨ c.tvecU = 0 → killed)

/-- R148, R366, R381: a fatal cause, a cause inside the supervisor handler and one with no vector begin the kill sequence: the context
has no turn any more, its generation tag on the core advances, and what it had pending or parked is abandoned; it stays Running until the
sequence ends. -/
def Obligations.CauseWithoutHandlerKills : Prop :=
  ∀ (s : State) (cause : Nat) (x : Word), let c := s.ctx s.cur
    (Cause.fatal cause = true ∨ c.noHandler cause = true) → c.kill = none → c.st = .running → c.slot ≠ none → c.twin = none →
      let t := s.raise (cause, x)
      (t.ctx s.cur).st = .running ∧ (∀ n, (t.ctx s.cur).nextTurn n = none) ∧ (t.ctx s.cur).pend = [] ∧
      (∃ k, (t.ctx s.cur).kill = some k ∧ k.cause = cause ∧ k.tval = x ∧ k.pc = c.pc) ∧
      (t.core (coreOf s.cur)).genTag (numOf s.cur) = c.gen + 1 ∧
      (∃ n ∈ t.agenda, n.ev = .killComplete ∧ n.arg.who = s.cur ∧ n.at_ = s.cycle + 1) ∧
      (∀ a, memGet t.mem a = memGet s.mem a)

/-- R373: RFT returns to TRAPPC (with .skip past the bundle there) in the saved mode, with the tail's effect; outside a handler
it raises ILLEGAL_OP. Its target is checked at the fetch, as every transfer's is (notes/assumptions/10.md). -/
def Obligations.RftReturnsFromHandler : Prop :=
  ∀ (s : State) (e : Effect), let c := s.ctx s.cur
    let back := c.trappc.setWidth 64
    (∀ skip, s.HeadReady (.rft skip) e → (c.uh = true ∨ c.sh = true) → s.Unmarked → ∀ n,
      (if skip then s.skipWords s.cur back = .ok n else n = 0) →
      s.TargetOk s.cur true c.pprv (back + word (4 * n)) →
        ∃ t : State, exec (.rft skip) s = .next t ∧ (t.ctx s.cur).pc = back + word (4 * n) ∧
          RegsAfter c (t.ctx s.cur) e.now ∧ (t.ctx s.cur).prv = c.pprv ∧ (t.ctx s.cur).uh = c.puh ∧
          (t.ctx s.cur).sh = false ∧ (t.ctx s.cur).pprv = false ∧ (t.ctx s.cur).puh = false ∧
          (t.ctx s.cur).trappc = c.trappc ∧ (t.ctx s.cur).tcause = c.tcause ∧ (t.ctx s.cur).tval = c.tval ∧
          (t.ctx s.cur).tsave = c.tsave ∧ (t.ctx s.cur).domain = c.domain ∧ SameMemory s t ∧ SameUnits s t) ∧
    (∀ skip, s.HeadReady (.rft skip) e → c.uh = false → c.sh = false →
      ∃ (x : Word) (u : State), exec (.rft skip) s = .next (u.raise (Cause.illegalOp, x)) ∧ u.ctxs = s.ctxs ∧ u.cur = s.cur ∧ u.mem = s.mem)

/-- R386, R387: in supervisor mode HALT completes its bundle and parks with wait reason 12 (a pair's leader once the comparator releases
it, R196), and PLBW puts s_b into entry s_a of the core's PLB, d receiving the entry before; no other entry, nothing else of the core and
of the machine changes. In user mode HALT and PLBW, and KILL.dom (R384), raise PRIVILEGED and have no effect. -/
def Obligations.SupervisorInstructionsAct : Prop :=
  (∀ (s : State) (e : Effect), s.HeadReady .halt e → (s.ctx s.cur).prv = true → s.leads = false →
    ∃ t : State, exec .halt s = .next t ∧ (t.ctx s.cur).st = .parked ∧ (t.ctx s.cur).wreason = 12 ∧ (t.ctx s.cur).pc = s.nextPc ∧
      RegsAfter (s.ctx s.cur) (t.ctx s.cur) e.now ∧ SameSystem (s.ctx s.cur) (t.ctx s.cur) ∧ SameMemory s t) ∧
  (∀ (s : State) (d a b : SReg) (e : Effect), let c := s.ctx s.cur
    let x := (c.getS a).toNat
    let y := c.getS b
    s.HeadReady (.plbw d a b) e → s.Unmarked → c.prv = true → x < 64 → bits y 15 9 = 0 → bits y 63 63 = 0 →
      (bits y 0 0 = 1 → s.domainOk (s.at s.cur) (bits y 31 16) = true) →
        ∃ t : State, exec (.plbw d a b) s = .next t ∧ (t.ctx s.cur).pc = s.nextPc ∧
          RegsAfter c (t.ctx s.cur) (setS d ((s.core (s.at s.cur)).plbEntry x) :: e.now) ∧ SameSystem c (t.ctx s.cur) ∧
          (t.core (s.at s.cur)).plbEntry x = y ∧
          (∀ k, k ≠ x → (t.core (s.at s.cur)).plbEntry k = (s.core (s.at s.cur)).plbEntry k) ∧
          t.core (s.at s.cur) = { s.core (s.at s.cur) with plb := (t.core (s.at s.cur)).plb } ∧
          (∀ k, k ≠ s.at s.cur → t.core k = s.core k) ∧ t.clusters = s.clusters ∧ t.slices = s.slices ∧ t.dies = s.dies ∧
          t.accs = s.accs ∧ t.net = s.net ∧ t.parts = s.parts ∧ SameMemory s t) ∧
  (∀ (s : State) (d a b : SReg) (nw : Bool), (s.ctx s.cur).prv = false →
    (∃ (x : Word) (u : State), exec .halt s = .next (u.raise (Cause.privileged, x)) ∧ u.ctxs = s.ctxs ∧ u.cores = s.cores ∧ u.mem = s.mem) ∧
    (∃ (x : Word) (u : State), exec (.plbw d a b) s = .next (u.raise (Cause.privileged, x)) ∧ u.ctxs = s.ctxs ∧ u.cores = s.cores ∧ u.mem = s.mem) ∧
    exec (.kill d a true nw) s = .next (s.raise (Cause.privileged, (s.ctx s.cur).getS a)))

/-- R384: KILL finds its targets among the contexts that are not Free: the one named, or with .dom all of a domain but the issuer. With
none it writes 0; KILL of itself begins the kill sequence; another context is sent KILLED, its registers standing until it takes
it, and with .nw the bundle completes with the number sent, else it parks with wait reason 2 for the record. (A pair's leader holds its
KILL for the comparator, R196.) That the record of a KILL of itself names the issuer as the killer is the model's choice
(notes/assumptions/53.md). -/
def Obligations.KillReachesItsTargets : Prop :=
  ∀ (s : State) (d a : SReg) (dom nw : Bool) (e : Effect), let c := s.ctx s.cur
    let x := c.getS a
    let g := bits x 31 0
    let ts := if dom then s.domainContexts (bits x 15 0) s.cur else if (s.ctx g).st = .free then [] else [g]
    s.HeadReady (.kill d a dom nw) e →
      (dom = true → c.prv = true → s.domainOk (s.at s.cur) (bits x 15 0) = false →
        exec (.kill d a dom nw) s = .next (s.raise (Cause.domain, x))) ∧
      ((dom = true ∧ c.prv = true ∧ s.domainOk (s.at s.cur) (bits x 15 0) = true) ∨
        (dom = false ∧ bits x 31 22 = Config.moduleNumber ∧ (s.coresOf (s.at s.cur)).contains (coreOf g) = true ∧
          (c.prv = true ∨ (s.ctx g).st = .free ∨ (s.ctx g).domain = c.domain)) → s.leads = false →
        (dom = false → g = s.cur → exec (.kill d a dom nw) s = .next (s.startKill s.cur Cause.killed 0 c.pc s.cur)) ∧
        (dom = true ∨ g ≠ s.cur → ts = [] → s.Unmarked → ∃ t : State, exec (.kill d a dom nw) s = .next t ∧
          Completed s t (Effect.join (Effect.turn [setS d 0]) e) s.nextPc) ∧
        (∀ h, ts = [h] → h ≠ s.cur → (s.ctx h).st = .running → (s.ctx h).dying = false → (s.ctx h).wait ≠ .drain →
          (nw = true → s.Unmarked) →
            ∃ t : State, exec (.kill d a dom nw) s = .next t ∧
              (nw = true → RegsAfter c (t.ctx s.cur) (setS d 1 :: e.now) ∧ (t.ctx s.cur).pc = s.nextPc) ∧
              (nw = false → (t.ctx s.cur).st = .parked ∧ (t.ctx s.cur).wreason = 2 ∧ (t.ctx s.cur).heldTail = some e ∧
                (t.ctx s.cur).s = c.s) ∧
              (t.ctx h).async = Cause.killed :: (s.ctx h).async ∧ (t.ctx h).killer = s.cur ∧ (t.ctx h).s = (s.ctx h).s ∧
              (∀ k, k ≠ h → k ≠ s.cur → t.ctx k = s.ctx k) ∧ ∀ y, memGet t.mem y = memGet s.mem y))

/-- R192, R193, R256, R257, R259, R260, R392: a load that may issue and whose addresses pass goes under way: its destinations
are pending on the access, and the next bundle follows. -/
def Obligations.LoadsGoUnderWay : Prop :=
  ∀ (s : State) (i : Instr) (e : Effect) (f : LoadForm) (cs : List (Piece × Place)), loadOf i s = some f →
    s.HeadReady i e → s.Unmarked → s.MemoryFree f.form.relaxed → (s.ctx s.cur).queueFull f.values = false →
    s.tryPieces f.form.am f.form.align 1 f.form.host f.form.pieces = .ok cs →
      ∃ (t : State) (a : Access), exec i s = .next t ∧ UnderWay s t a e ∧ a.kind = f.kind ∧ a.dests = f.dests ∧ a.size = f.size ∧
        a.relaxed = f.form.relaxed ∧ a.addr = (f.form.pieces.headD ⟨0, 0, 0⟩).addr

/-- R192, R193, R256, R258 to R260, R392: a store that may issue and whose addresses pass goes under way with its data in its
requests, no byte of memory changed before its targets serve them; a store of R83 parks for its acknowledgement. In its issue cycle it
updates the bytes it covers of a valid sector of its core's L1 data cache, and no other sector (R244); a pair's leader's once the
comparator releases it (R196). -/
def Obligations.StoresGoUnderWay : Prop :=
  ∀ (s : State) (i : Instr) (e : Effect) (f : MemForm) (data : List Byte) (cs : List (Piece × Place)),
    storeOf i s = some (f, data) → s.HeadReady i e → s.MemoryFree f.relaxed →
    s.tryPieces f.am f.align 2 f.host f.pieces = .ok cs →
      (s.storeParks s.cur f.relaxed cs = false → s.Unmarked →
        ∃ (t : State) (a : Access), exec i s = .next t ∧ UnderWay s t a e ∧ a.kind = .store ∧ a.dests = [] ∧ a.relaxed = f.relaxed ∧
          a.addr = (f.pieces.headD ⟨0, 0, 0⟩).addr ∧ a.Carries data) ∧
      (s.storeParks s.cur f.relaxed cs = true →
        ∃ (t : State) (a : Access), exec i s = .next t ∧ Waiting s t e (.access s.nextId) ∧ a ∈ t.accs ∧ a.id = s.nextId ∧ a.gid = s.cur ∧
          a.kind = .store ∧ a.parks = true ∧ a.addr = (f.pieces.headD ⟨0, 0, 0⟩).addr ∧ a.Carries data) ∧
      (∀ p, f.pieces = [p] → bits p.addr 56 56 = 0 → s.leads = false → s.Unmarked →
        ∃ t : State, exec i s = .next t ∧ let at_ := p.addr.toNat % 64
          (∀ x ∈ (s.core (s.at s.cur)).l1d, x.addr ≠ p.addr.toNat / 64 * 64 → x ∈ (t.core (s.at s.cur)).l1d) ∧
          (∀ x ∈ (s.core (s.at s.cur)).l1d, x.addr = p.addr.toNat / 64 * 64 → ∃ y ∈ (t.core (s.at s.cur)).l1d, y.addr = x.addr ∧
            ∀ k, k < 64 → y.data.extractLsb' (8 * k) 8 =
              if at_ ≤ k ∧ k < at_ + data.length then data.getD (k - at_) 0 else x.data.extractLsb' (8 * k) 8))

/-- R261 to R264: LDA goes under way as an LDD and at cluster scope or wider empties the L1 data cache; STL and FENCE with
nothing to wait for go on at once (a pair's leader's STL once the comparator releases it, R196); a FENCE whose scope covers touched targets
parks until each of them has echoed its probe (R254), one PROBE_ECHO for each on the agenda, its arrival there or its echo, which is the
model's choice (notes/assumptions/21.md); L1INV removes what it names. -/
def Obligations.OrderingInstructionsComplete : Prop :=
  ∀ (s : State) (e : Effect), let c := s.ctx s.cur
    let core := s.at s.cur
    c.slot ≠ none → s.MemoryFree false →
    (∀ (o : ScArgs) cs, s.HeadReady (.lda o) e → s.Unmarked → c.queueFull 1 = false →
      s.tryPieces o.am 8 1 true [⟨c.getS o.base + o.off.value 8, 0, 8⟩] = .ok cs →
        ∃ (t : State) (a : Access), exec (.lda o) s = .next t ∧ UnderWay s t a e ∧ a.kind = .lda o.sc ∧ a.dests = [.s o.d] ∧ a.size = 8 ∧
          a.addr = c.getS o.base + o.off.value 8 ∧ (o.sc ≠ .core → (t.core core).l1d = [])) ∧
    (∀ (o : ScArgs) cs, s.HeadReady (.stl o) e → s.leads = false → s.Released (scopeMask core o.sc) →
      s.tryPieces o.am 8 2 true [⟨c.getS o.base + o.off.value 8, 0, 8⟩] = .ok cs →
        ∃ (t : State) (a : Access), exec (.stl o) s = .next t ∧ a ∈ t.accs ∧ a.id = s.nextId ∧ a.gid = s.cur ∧ a.kind = .store ∧
          a.addr = c.getS o.base + o.off.value 8 ∧ a.Carries (bytesOfNat 8 (c.getS o.d).toNat) ∧
          (a.parks = true → Waiting s t e (.access s.nextId)) ∧ (a.parks = false → Resumes s t [] e)) ∧
    (∀ sc z, s.HeadReady (.fence sc z) e → s.Released (scopeMask core sc) → c.rcause = 0 →
      ∃ t : State, exec (.fence sc z) s = .next t ∧ Resumes s t [] e ∧ (sc ≠ .core → (t.core core).l1d = [])) ∧
    (∀ sc z, s.HeadReady (.fence sc z) e → let targets := s.probesOf core (c.touch &&& scopeMask core sc)
      (s.allAccepted s.cur = true → targets ≠ [] → ∃ t : State, exec (.fence sc z) s = .next t ∧ Waiting s t e .probes ∧
        (t.ctx s.cur).probes = targets ∧
        ∀ b ∈ targets, ∃ n ∈ t.agenda, n.ev = .probeEcho ∧ n.arg.who = s.cur ∧ n.arg.what = b) ∧
      (s.allAccepted s.cur = false → scopeMask core sc ≠ 0 → ∃ t : State, exec (.fence sc z) s = .next t ∧ Waiting s t e .accepted ∧
        (t.ctx s.cur).relMask = scopeMask core sc)) ∧
    (∀ dat ins z, s.HeadReady (.l1inv dat ins (.whole z)) e → s.Unmarked →
      ∃ t : State, exec (.l1inv dat ins (.whole z)) s = .next t ∧ RegsAfter c (t.ctx s.cur) e.now ∧ (t.ctx s.cur).pc = s.nextPc ∧
        (dat = true → (t.core core).l1d = []) ∧ (ins = true → (t.core core).l1i = []) ∧ SameMemory s t) ∧
    (∀ dat ins base off, s.HeadReady (.l1inv dat ins (.line base off)) e → s.Unmarked →
      let ea := c.getS base + off.value 1
      bits ea 63 56 = 0 →
        ∃ t : State, exec (.l1inv dat ins (.line base off)) s = .next t ∧ RegsAfter c (t.ctx s.cur) e.now ∧
          (t.ctx s.cur).pc = s.nextPc ∧ SameMemory s t ∧
          (dat = true → (t.core core).l1d = (s.core core).l1d.filter fun x => x.addr / 256 != ea.toNat / 256) ∧
          (ins = true → (t.core core).l1i = (s.core core).l1i.filter fun x => x.addr / 256 != ea.toNat / 256))

/-- R59, R61, R63, R75, R77, R137: an address is checked in the rule's order: MISALIGNED, then for a near slab PROTECTION or
ABSENT_CORE, for a global address PROTECTION by the PLB in user mode, and for the windows PRIVILEGED in user mode. -/
def Obligations.AddressChecksInOrder : Prop :=
  ∀ (s : State) (g : Nat) (a : Word) (align : Nat) (need : Rights), let c := s.ctx g
    (bits a 63 57 ≠ 0 ∨ a.toNat % align ≠ 0 → ∀ am, s.checkAddr g am a align need = .error (Cause.misaligned, a)) ∧
    (bits a 63 57 = 0 → a.toNat % align = 0 →
      (bits a 56 56 = 0 →
        (∀ am, am ≠ .global → s.checkAddr g am a align need = .error (Cause.misaligned, a)) ∧
        (c.prv = false → Rights.cover (s.plbRights (s.at g) c.domain a) need = false →
          s.checkAddr g .global a align need = .error (Cause.protection, a)) ∧
        (c.prv = true ∨ Rights.cover (s.plbRights (s.at g) c.domain a) need = true →
          s.checkAddr g .global a align need = .ok (.global (bits a 55 46) (bits a 45 45) (bits a 44 0)))) ∧
      (bits a 56 47 = 2 ^ 9 → bits a 38 21 = 0 → ∀ am, (am = .own → s.ownCoreOk (s.at g) a = true) →
        (s.slabCluster (s.at g) a = none → s.checkAddr g am a align need = .error (Cause.protection, a)) ∧
        (∀ cl, s.slabCluster (s.at g) a = some cl → let p := slabByte am (s.at g) (bits a 20 0)
          ((s.core (8 * cl + p.1)).present = false → s.checkAddr g am a align need = .error (Cause.absentCore, a)) ∧
          ((s.core (8 * cl + p.1)).present = true → s.checkAddr g am a align need = .ok (.slab (8 * cl + p.1) p.2)))) ∧
      (bits a 56 46 = 9 * 2 ^ 7 → bits a 44 28 = 0 →
        (c.prv = false → s.checkAddr g .global a align need = .error (Cause.privileged, a)) ∧
        (c.prv = true → s.checkAddr g .global a align need = .ok (.census (bits a 45 45) (bits a 27 0)))) ∧
      (bits a 56 40 = 5 * 2 ^ 14 →
        (c.prv = false → s.checkAddr g .global a align need = .error (Cause.privileged, a)) ∧
        (c.prv = true → s.hostOpen (s.at g) = false → s.checkAddr g .global a align need = .error (Cause.protection, a)) ∧
        (c.prv = true → s.hostOpen (s.at g) = true → s.checkAddr g .global a align need = .ok (.host (bits a 39 0)))))

/-- R192, R193: a memory instruction (a load, store, LDA, STL, FENCE, L1INV, object instruction, untyped atomic, bank command or SEND)
whose context has a non-relaxed access under way, or a relaxed one that finds no entry, does not issue, before any check: the slot parks
at the same bundle, with nothing of it done. -/
def Obligations.MemoryInstructionsWaitTheirTurn : Prop :=
  ∀ (s : State) (i : Instr) (relaxed : Bool), memoryForm i s = some relaxed → ¬ s.MemoryFree relaxed →
      ∃ t : State, exec i s = .next t ∧ (t.ctx s.cur).st = .parked ∧ (t.ctx s.cur).wait = .issue ∧ (t.ctx s.cur).pc = (s.ctx s.cur).pc ∧
        (t.ctx s.cur).s = (s.ctx s.cur).s ∧ (t.ctx s.cur).v = (s.ctx s.cur).v ∧ (t.ctx s.cur).m = (s.ctx s.cur).m ∧
        (t.ctx s.cur).pend = (s.ctx s.cur).pend ∧ SameMemory s t ∧ t.accs = s.accs ∧ t.net = s.net

/-- R94 to R96, R111, R113, R114, R124, R125: an object instruction whose check passes sends one request of its opcode, address and
operand to the home, at once or once its release is complete, and parks for the reply with its tail's effect held (a pair's leader holds
it for the comparator first, R196); with a misplaced address it raises MISALIGNED, and in user mode without the right O PROTECTION, with
the address in TVAL. An untyped atomic that passes its checks does the same with the operand and, for ACAS, the expected value. -/
def Obligations.ObjectInstructionsAskTheHome : Prop :=
  (∀ (s : State) (i : Instr) (o : OArgs), objectArgs i = some o → let c := s.ctx s.cur
      let a := c.getS o.a
      s.MemoryFree false →
        (∀ e, s.HeadReady i e → s.leads = false → bits a 63 46 = Config.moduleNumber → a.toNat % 64 = 0 →
          (c.prv = true ∨ Rights.cover (s.plbRights (s.at s.cur) c.domain a) 8 = true) →
          (releaseOp (objectOp i) = true →
            s.Released (scopeMask (s.at s.cur) ((homeScope (s.at s.cur) a).max (o.ovr.getD .core)))) →
            ∃ (t : State) (r : ObjReq) (m : Nat), exec i s = .next t ∧ Waiting s t e (.object r.id false) ∧
              (⟨m, .request r⟩ : NetMsg) ∈ t.net ∧
              r.op = objectOp i ∧ r.addr = a ∧ r.operand = c.getS o.b ∧ r.ret = o.ret ∧ r.nw = o.nw ∧ r.cmb = o.cmb ∧
              r.ctxid = s.cur ∧ r.gen = c.gen ∧ (t.ctx s.cur).dest = o.d ∧
              ∃ n ∈ t.agenda, (o.cmb = false ∧ n.ev = .objectRequestArrival ∧ n.arg.who = homeSlice a ∧ n.arg.what = m + 1) ∨
                (o.cmb = true ∧ n.ev = .switchCombine ∧ n.arg.what = m)) ∧
        (c.Clear (bundleReads i s.bun.tail ++ bundleWrites i s.bun.tail) →
          (bits a 63 56 ≠ 0 ∨ a.toNat % 64 ≠ 0 → exec i s = .next (s.raise (Cause.misaligned, a))) ∧
          (bits a 63 56 = 0 → a.toNat % 64 = 0 → c.prv = false → Rights.cover (s.plbRights (s.at s.cur) c.domain a) 8 = false →
            exec i s = .next (s.raise (Cause.protection, a))))) ∧
  (∀ (s : State) (i : Instr) (o : AArgs) (e : Effect), atomicArgs i = some o → let c := s.ctx s.cur
      let a := c.getS o.a
      s.HeadReady i e → s.leads = false → s.MemoryFree false → bits a 63 46 = Config.moduleNumber →
      a.toNat % (if o.w32 then 4 else 8) = 0 →
      (c.prv = true ∨ Rights.cover (s.plbRights (s.at s.cur) c.domain a) 3 = true) →
        ∃ (t : State) (r : ObjReq) (m : Nat), exec i s = .next t ∧ Waiting s t e (.object r.id false) ∧ (⟨m, .request r⟩ : NetMsg) ∈ t.net ∧
          r.op = objectOp i ∧ r.addr = a ∧ r.operand = c.getS o.b ∧ r.expect = c.getS o.d ∧ r.w32 = o.w32 ∧ r.ctxid = s.cur ∧
          (t.ctx s.cur).dest = o.d ∧ (∃ n ∈ t.agenda, n.ev = .objectRequestArrival ∧ n.arg.who = homeSlice a ∧ n.arg.what = m + 1))

/-- R285, R286, R289: a bank command that passes its checks goes under way as an access of its bank, with its rows, constant and
sub-operation captured. -/
def Obligations.BankCommandsGoUnderWay : Prop :=
  ∀ (s : State) (i : Instr) (o : BArgs) (e : Effect) (k byte : Nat), bankArgs i = some o → let c := s.ctx s.cur
    let x := c.getS o.d
    let rows := if bits x 9 0 = 0 then 1024 else bits x 9 0
    s.HeadReady i e → s.Unmarked → s.MemoryFree o.x →
    s.bankCheck o.am (c.getS o.a) (c.getS o.b) (bankHasSource (bankOp i)) (if bankOp i = 0x4F then 1 else rows) rows =
      .ok (k, byte) →
      ∃ (t : State) (a : Access) (b : BankCmd), exec i s = .next t ∧ UnderWay s t a e ∧ a.kind = .bankCmd ∧ a.relaxed = o.x ∧ a.bcmd = some b ∧
        b.op = bankOp i ∧ b.dst = byte ∧ b.rows = rows ∧ b.c.toNat = bits x 63 32 ∧ b.sub = o.sub.toNat ∧ b.bf16 = o.bf16 ∧
        (∃ p ∈ a.parts, p.tgt = .bank k (byte / 32 % 8) (byte / 256))

/-- R269, R282, R308, R320: MXC and CPC push a command that passes its static checks, when a queue entry is free and the release
has nothing to wait for: the command stands last in its queue with the next sequence number, which d receives. -/
def Obligations.EngineCommandsAreQueued : Prop :=
  ∀ (s : State) (d : SReg) (a : EReg) (e : Effect), let c := s.ctx s.cur
    let ws := c.block a
    let core := s.at s.cur
    c.twin = none → c.slot ≠ none →
      (s.HeadReady (.mxc d a) e → matrixFail ws c.tfmt c.tscale false = none → (s.core core).mx.used < 32 →
        s.Released (s.matrixMask s.cur (s.matrixCmd s.cur ws)) →
          ∃ (t : State) (q : MxCmd), exec (.mxc d a) s = .next t ∧ Resumes s t [setS d ((s.core core).mx.seq.setWidth 64)] e ∧
            (t.core core).mx.queue = (s.core core).mx.queue ++ [q] ∧ q.words = ws ∧ q.seq = (s.core core).mx.seq ∧
            q.gid = s.cur ∧ (t.core core).mx.seq = (s.core core).mx.seq + 1) ∧
      (s.HeadReady (.cpc d a) e → copyFail ws c.tfmt = none → (s.cluster (clusterOf core)).cpQueue.length < 64 →
        s.Released (s.copyMask s.cur ws) →
          ∃ (t : State) (q : CpCmd), exec (.cpc d a) s = .next t ∧ Resumes s t [setS d ((s.cluster (clusterOf core)).cpSeq.setWidth 64)] e ∧
            (t.cluster (clusterOf core)).cpQueue = (s.cluster (clusterOf core)).cpQueue ++ [q] ∧ q.words = ws ∧
            q.seq = (s.cluster (clusterOf core)).cpSeq ∧ q.gid = s.cur ∧
            (t.cluster (clusterOf core)).cpSeq = (s.cluster (clusterOf core)).cpSeq + 1) ∧
      (∀ n, s.HeadReady (.mxc d a) e → matrixFail ws c.tfmt c.tscale false = some n →
        exec (.mxc d a) s = .next (s.raise (Cause.mxCmd, word n))) ∧
      (∀ n, s.HeadReady (.cpc d a) e → copyFail ws c.tfmt = some n →
        exec (.cpc d a) s = .next (s.raise (Cause.cpCmd, word n)))

/-- R283: ESTAT gives the count of the context's commands on an engine, the sticky flag and the number of its last completed
command, and with .clr clears the flag and every ENGINE_ERROR recorded and not yet raised; nothing of the core or of memory changes. Its
word names the engine in fn[0] and .clr in fn[1], and any other nonzero bit below d is refused. That several recorded causes stand side
by side, so that another one is RCAUSE after the withdrawal, is the model's choice (notes/assumptions/58.md). -/
def Obligations.EstatReadsAndClears : Prop :=
  (∀ (s : State) (d : SReg) (cp clr : Bool) (e : Effect), let c := s.ctx s.cur
    let last := if cp then c.lastCp else c.lastMx
    s.HeadReady (.estat d cp clr) e → s.Unmarked →
      ∃ (t : State) (x : Word), exec (.estat d cp clr) s = .next t ∧ RegsAfter c (t.ctx s.cur) (setS d x :: e.now) ∧
        (t.ctx s.cur).pc = s.nextPc ∧ SameMemory s t ∧ SameUnits s t ∧
        bits x 15 0 = (if cp then s.cpCount s.cur else s.mxCount s.cur) % 2 ^ 16 ∧ x.getLsbD 16 = c.eerr ∧
        x.getLsbD 17 = last.isSome ∧ bits x 31 18 = 0 ∧ bits x 63 32 = (last.getD 0).toNat ∧
        (clr = true → (t.ctx s.cur).eerr = false ∧
          (t.ctx s.cur).rcause = ((c.records.find? fun r => r.cause.toNat != Cause.engineError).map (·.cause)).getD 0 ∧
          (t.ctx s.cur).hasRecorded Cause.engineError = false) ∧
        (clr = false → (t.ctx s.cur).eerr = c.eerr ∧ (t.ctx s.cur).rcause = c.rcause)) ∧
  (∀ (w : Code) (al : Bool), Code.cls w = 1 → Code.side w = false → Code.opc w = 0x52 →
    (w.extractLsb' 2 14 = 0 → decodeBundle al [w] =
      .ok (⟨Code.mark w, .estat (w.extractLsb' 16 5).toFin (w.getLsbD 0) (w.getLsbD 1), none⟩, 1)) ∧
    (w.extractLsb' 2 14 ≠ 0 → decodeBundle al [w] = .error (.illegalOp (w.setWidth 64))))

/-- R165, R172, R173, R343: with their checks passed and nothing left to release, FORK pushes a task record at the bottom of the
deque (d receives 0, or 1 when 128 are there), in the first cycle in which the deque's port is free (R167), SPAWN sends the creation of a
context and SEND a USER message, each waiting for its answer. (A pair's leader holds its action for the comparator first, R196.) -/
def Obligations.TasksAndMessagesLeave : Prop :=
  ∀ (s : State) (d a b : SReg) (e : Effect), let c := s.ctx s.cur
    let core := s.at s.cur
    c.slot ≠ none → s.leads = false →
      (s.HeadReady (.fork d a b) e → s.forkCheck (c.getS a) (c.getS b) = none →
        s.Released (scopeMask core (s.forkScope core (s.stealSize s.cur))) →
          ∃ t : State, exec (.fork d a b) s = .next t ∧
            ((s.core core).dequeAt ≤ s.cycle → (s.core core).deque.length < 128 → Resumes s t [setS d 0] e ∧
              (t.core core).deque = s.taskRec s.cur (c.getS a) (c.getS b) :: (s.core core).deque) ∧
            ((s.core core).dequeAt ≤ s.cycle → 128 ≤ (s.core core).deque.length →
              Resumes s t [setS d 1] e ∧ (t.core core).deque = (s.core core).deque) ∧
            (s.cycle < (s.core core).dequeAt → Waiting s t e .answer ∧ (t.core core).deque = (s.core core).deque ∧
              (t.core core).dequeAt = (s.core core).dequeAt + 1 ∧
              ∃ w ∈ t.agenda, w.ev = .slotFill ∧ w.arg.who = core ∧ w.arg.what = s.cur + 1 ∧ w.at_ = (s.core core).dequeAt)) ∧
      (s.HeadReady (.spawn d a b) e → s.spawnCheck (c.getS a) (c.getS b) = none →
        s.Released (scopeMask core .module) →
          let dest := (s.coresOf core).getD (bits (c.getS a) 9 0) 0
          ∃ (t : State) (m n : Nat) (x : Ctx), exec (.spawn d a b) s = .next t ∧ Waiting s t e .answer ∧ (t.ctx s.cur).answer = some m ∧
            (t.ctx s.cur).dest = d ∧ (⟨m, .create n dest x s.cur⟩ : NetMsg) ∈ t.net ∧ x.pc = c.getS b ∧
            x.getS 3 = word (bits (c.getS a) 63 32) ∧ x.getS 4 = c.getS 4 ∧ x.getS 5 = c.getS 5 ∧ x.getS 6 = c.getS 6 ∧
            x.getS 7 = c.getS 7 ∧ x.domain = c.domain ∧ x.tfmt = c.tfmt ∧ x.tscale = c.tscale ∧
            (∃ w ∈ t.agenda, w.ev = .spawnCreation ∧ w.arg.who = dest ∧ w.arg.what = m)) ∧
      (∀ ovr nw, s.HeadReady (.send d a b ovr nw) e → s.MemoryFree false → bits (c.getS a) 31 22 = Config.moduleNumber →
        let dest := bits (c.getS a) 31 0
        s.Released (scopeMask core ((coreScope core (coreOf dest)).max (ovr.getD .core))) →
          ∃ (t : State) (m : Nat) (p : Message), exec (.send d a b ovr nw) s = .next t ∧ Waiting s t e .answer ∧ (t.ctx s.cur).answer = some m ∧
            (⟨m, .user dest p s.cur nw⟩ : NetMsg) ∈ t.net ∧ p.dest = dest ∧ bits p.w0 7 0 = 0x10 ∧
            bits p.w0 63 32 = bits (c.getS a) 63 32 ∧ p.w1 = word s.cur ∧ p.w2 = (if b = 0 then 0 else c.getS b) ∧
            p.w3 = (if b = 0 then 0 else c.getS (SReg.next b 1)) ∧
            (∃ w ∈ t.agenda, w.ev = .messageArrival ∧ w.arg.who = coreOf dest ∧ w.arg.what = m))

/-- R174 to R176: QUIT parks its context for its drain (a pair's leader first for the comparator, R196); YIELD gives the slot up to a Ready context of its level or a higher one,
and otherwise only completes; WAITT resumes at once when its deadline has passed and else parks until it. -/
def Obligations.QuitYieldAndWaitt : Prop :=
  ∀ (s : State) (e : Effect), let c := s.ctx s.cur
    c.slot ≠ none →
      (s.HeadReady .quit e → ∃ t : State, exec .quit s = .next t ∧ (t.ctx s.cur).st = .parked ∧
        (t.ctx s.cur).s = c.s ∧ (t.ctx s.cur).pc = c.pc ∧ SameMemory s t ∧
        (s.leads = true → (t.ctx s.cur).wait = .comparator ∧ (t.ctx s.cur).held = some .quit) ∧
        (s.leads = false → (t.ctx s.cur).wait = .drain ∧ ∃ n ∈ t.agenda, n.ev = .quitComplete ∧ n.arg.who = s.cur)) ∧
      (s.HeadReady .yield e → s.yields s.cur = false → s.Unmarked →
        ∃ t : State, exec .yield s = .next t ∧ Completed s t e s.nextPc) ∧
      (s.HeadReady .yield e → s.yields s.cur = true → c.pend = [] → e.later = [] → c.outstanding = none →
        (s.core (s.at s.cur)).tcc = [] → (∀ x ∈ (s.core (s.at s.cur)).ready, x.since < s.cycle) →
        ∃ t : State, exec .yield s = .next t ∧ (t.ctx s.cur).st = .ready ∧ (t.ctx s.cur).slot = none ∧
          (t.ctx s.cur).pc = s.nextPc ∧ RegsAfter c (t.ctx s.cur) e.now ∧
          ((t.core (s.at s.cur)).ready.map (·.gid)) = (s.core (s.at s.cur)).ready.map (·.gid) ++ [s.cur]) ∧
      (∀ d a b, s.HeadReady (.waitt d a b) e →
        let deadline := c.getS a + c.getS b
        ((c.wake = true ∨ s.passed (dieOfCore (s.at s.cur)) deadline = true) →
          ∃ t : State, exec (.waitt d a b) s = .next t ∧ (t.ctx s.cur).st = .parked ∧ (t.ctx s.cur).wait = .waitt deadline ∧
            (t.ctx s.cur).resuming = true ∧ (t.ctx s.cur).wake = false ∧ (t.ctx s.cur).heldTail = some e ∧
            (t.ctx s.cur).dest = d ∧ (t.ctx s.cur).s = c.s ∧ (t.ctx s.cur).pc = s.nextPc ∧ SameMemory s t) ∧
        (c.wake = false → s.passed (dieOfCore (s.at s.cur)) deadline = false →
          ∃ t : State, exec (.waitt d a b) s = .next t ∧ Waiting s t e (.waitt deadline) ∧ (t.ctx s.cur).dest = d ∧
            ((s.die (dieOfCore (s.at s.cur))).timeSet = true →
              ∃ n ∈ t.agenda, n.ev = .waittDeadline ∧ n.arg.who = s.cur)))

/-- R344: RECV takes the context's oldest message that fits into s_d to s_(d+3), its entry free again; with none it parks with
wait reason 4, and with .nw it writes zeros. R345: MATCH registers an arrival-match entry in the lowest free place and writes its
index; it writes −3 for ill-formed operands or a context that may not be named, −2 for a tag in use and −1 when all 16 places are
taken. -/
def Obligations.MessagesAreTakenAndMatched : Prop :=
  (∀ (s : State) (d a : SReg) (tag nw : Bool) (e : Effect), let c := s.ctx s.cur
    let core := s.at s.cur
    let fits := fun (m : Message) => m.dest == s.cur && (!tag || bits m.w0 63 32 == bits (c.getS a) 31 0)
    s.HeadReady (.recv d a tag nw) e → s.Unmarked → c.hasRecorded Cause.engineError = false →
      (∀ m, (s.core core).inbox.find? fits = some m →
        ∃ t : State, exec (.recv d a tag nw) s = .next t ∧ (t.ctx s.cur).pc = s.nextPc ∧
          RegsAfter c (t.ctx s.cur)
            ([setS d m.w0, setS (SReg.next d 1) m.w1, setS (SReg.next d 2) m.w2, setS (SReg.next d 3) m.w3] ++ e.now) ∧
          (t.core core).inbox = (s.core core).inbox.filter (fun x => x != m) ∧ (t.core core).l1d = [] ∧ SameMemory s t) ∧
      ((s.core core).inbox.find? fits = none → (s.core core).saggarMsgs.find? fits = none →
        (nw = true → ∃ t : State, exec (.recv d a tag nw) s = .next t ∧ Completed s t (Effect.join
          (Effect.turn [setS d 0, setS (SReg.next d 1) 0, setS (SReg.next d 2) 0, setS (SReg.next d 3) 0]) e) s.nextPc) ∧
        (nw = false → ∃ t : State, exec (.recv d a tag nw) s = .next t ∧ (t.ctx s.cur).st = .parked ∧ (t.ctx s.cur).wreason = 4 ∧
          (t.ctx s.cur).pc = c.pc ∧ (t.ctx s.cur).s = c.s ∧ SameMemory s t))) ∧
  (∀ (s : State) (d a b : SReg) (wake : Bool) (e : Effect), let c := s.ctx s.cur
    let core := s.at s.cur
    let x := c.getS a
    let y := c.getS b
    let named := s.ctx (gidOf core (bits x 43 32))
    let bad := bits x 63 44 ≠ 0 ∨ bits y 63 32 ≠ 0 ∨ bits y 31 0 = 0 ∨ named.st = .free ∨
      (c.prv = false ∧ named.domain ≠ c.domain)
    let used := ∃ k m, (k, m) ∈ (s.core core).arrivals ∧ m.tag.toNat = bits x 31 0
    s.HeadReady (.arrMatch d a b wake) e → s.Unmarked →
      (bad → ∃ t : State, exec (.arrMatch d a b wake) s = .next t ∧
        Completed s t (Effect.join (Effect.turn [setS d (-3)]) e) s.nextPc) ∧
      (¬ bad → used → ∃ t : State, exec (.arrMatch d a b wake) s = .next t ∧
        Completed s t (Effect.join (Effect.turn [setS d (-2)]) e) s.nextPc) ∧
      (¬ bad → ¬ used → (∀ k, k < 16 → mapGet (s.core core).arrivals k ≠ none) →
        ∃ t : State, exec (.arrMatch d a b wake) s = .next t ∧ Completed s t (Effect.join (Effect.turn [setS d (-1)]) e) s.nextPc) ∧
      (∀ k, k < 16 → ¬ bad → ¬ used → mapGet (s.core core).arrivals k = none →
        (∀ j, j < k → mapGet (s.core core).arrivals j ≠ none) →
        ∃ (t : State) (n : MatchEntry), exec (.arrMatch d a b wake) s = .next t ∧ RegsAfter c (t.ctx s.cur) (setS d (word k) :: e.now) ∧
          (t.ctx s.cur).pc = s.nextPc ∧ SameMemory s t ∧ mapGet (t.core core).arrivals k = some n ∧
          n.tag.toNat = bits x 31 0 ∧ n.named = gidOf core (bits x 43 32) ∧ n.owner = s.cur ∧ n.length = bits y 31 0 ∧
          n.count = 0 ∧ n.wake = wake))

/-- R17, R71, R179 to R184, R365 to R367: the steps of fetch and resumption. FETCH latches the words that the instruction cache holds
at the pc or requests the sector it misses, and checks the target of a taken transfer, whose bundle has no effect if it fails;
ICACHE_FILL installs the sector that came, a U page's excepted, and its slot resumes; PARK_RESUME lets the slot run; ILLEGAL_OP raises
its cause; ASYNC_CAUSE_TAKEN takes a fatal cause by the kill sequence and another by its handler; ESCALATION_LOGGED enters the
supervisor handler with a record in the trap log. -/
def Obligations.FetchAndResumeSteps : Prop :=
  ∀ (s : State), let g := s.arg.who
    let c := s.ctx g
    (c.st = .running → c.resuming = false → c.latch = none → c.fills = [] → c.trap = none → c.kill = none → c.wait ≠ .drain →
      (c.undo = none → c.transfer = none → c.vectoring = false →
        (∀ ws, s.gather g c.pc 5 [] = .words ws →
          ∃ t : State, exec .fetch s = .next t ∧ (t.ctx g).latch = some (.words ws) ∧ (t.ctx g).pc = c.pc ∧
            (t.ctx g).s = c.s ∧ t.mem = s.mem ∧ ∀ k a, cacheFind (t.core k).l1i a = cacheFind (s.core k).l1i a) ∧
        (∀ a, s.gather g c.pc 5 [] = .missing a →
          ∃ t : State, exec .fetch s = .next t ∧ (t.ctx g).st = .parked ∧ (t.ctx g).wait = .fetchFill ∧ (t.ctx g).fills = [a] ∧
            (t.core (s.at g)).ifills.any (fun f => f.sector == a) = true ∧ (t.ctx g).s = c.s ∧ t.mem = s.mem)) ∧
      (∀ u, c.undo = some u → let check := s.checkTarget g [] u.xfer.byReg (if u.xfer.rft then u.pprv else u.prv) u.xfer.target
        (check = .ok none → u.marker = false →
          ∃ t : State, exec .fetch s = .next t ∧ (t.ctx g).undo = none ∧ (t.ctx g).pc = c.pc ∧ (t.ctx g).s = c.s ∧
            (t.ctx g).v = c.v ∧ (t.ctx g).m = c.m ∧ t.mem = s.mem) ∧
        (∀ x, check = .error x → exec .fetch s = .next ((s.setCtx g (c.undone u)).raiseFrom g x u.at_)) ∧
        (∀ a, check = .ok (some a) →
          ∃ t : State, exec .fetch s = .next t ∧ (t.ctx g).st = .parked ∧ (t.ctx g).wait = .fetchFill ∧ (t.ctx g).fills = [a] ∧
            (t.ctx g).transfer = some u.xfer ∧ (t.ctx g).pc = u.pc ∧
            (t.core (s.at g)).ifills.any (fun f => f.sector == a) = true ∧ t.mem = s.mem))) ∧
    (∀ f d, (s.core s.arg.who).ifills.find? (fun x => x.sector == s.arg.what && x.sent) = some f → f.data = some d →
      f.poison = false →
      ((∀ x ∈ s.ctxs, ¬ (x.2.at x.1 = s.arg.who ∧ s.arg.what ∈ x.2.fills)) →
        ∃ t : State, exec .icacheFill s = .next t ∧ (∀ x ∈ (t.core s.arg.who).ifills, x.sector ≠ s.arg.what) ∧ t.mem = s.mem ∧
          (f.drop = false → f.uncached = false → (⟨s.arg.what, d⟩ : Sector) ∈ (t.core s.arg.who).l1i) ∧
          (f.drop = true ∨ f.uncached = true → (t.core s.arg.who).l1i = (s.core s.arg.who).l1i)) ∧
      (∀ h x, s.ctxs = [(h, x)] → x.at h = s.arg.who → x.fills = [s.arg.what] → x.transfer = none → x.latch = none →
        x.wait = .fetchFill → x.st = .parked → x.slot ≠ none →
          ∃ t : State, exec .icacheFill s = .next t ∧ ((t.ctx h).fills = [] → (t.ctx h).resuming = true ∧ (t.ctx h).latch ≠ none) ∧
            (t.ctx h).pc = x.pc ∧ (t.ctx h).s = x.s)) ∧
    (∀ a, c.st = .parked → c.kill = none → c.resuming = true → s.stopped (s.at g) = none → c.wait = .object 0 true → c.phase = 0 →
      c.latch = none → c.fills = [] → s.gather g c.pc 5 [] = .missing a →
        ∃ t : State, exec .parkResume s = .next t ∧ (t.ctx g).st = .parked ∧ (t.ctx g).wait = .fetchFill ∧ (t.ctx g).fills = [a] ∧
          (t.ctx g).resuming = false ∧ (t.ctx g).s = c.s ∧ t.mem = s.mem) ∧
    (c.st = .parked → c.kill = none → c.resuming = true → s.stopped (s.at g) = none → c.wait = .object 0 true → c.phase = 0 →
      c.latch ≠ none → c.marker = false →
        ∃ t : State, exec .parkResume s = .next t ∧ (t.ctx g).st = .running ∧ (t.ctx g).wait = .none ∧
          (t.ctx g).readyAt = s.cycle ∧ (t.ctx g).resuming = false ∧ (t.ctx g).s = c.s ∧ t.mem = s.mem) ∧
    (∀ deadline e, c.st = .parked → c.kill = none → c.resuming = true → s.stopped (s.at g) = none → c.wait = .waitt deadline →
      c.latch ≠ none → c.marker = false → c.heldTail = some e →
        ∃ t : State, exec .parkResume s = .next t ∧ (t.ctx g).st = .running ∧
          RegsAfter c (t.ctx g) (setS c.dest (s.time (dieOfCore (s.at g))) :: e.now) ∧ t.mem = s.mem) ∧
    (c.st = .running → exec .illegalOp s = .next (s.raiseAt g (s.arg.what, word s.arg.val))) ∧
    (c.st = .running → Cause.killed ∈ c.async → exec .asyncCauseTaken s = .next (s.startKill g Cause.killed 0 c.pc c.killer)) ∧
    (c.st = .running → Cause.killed ∉ c.async → Cause.parityKill ∈ c.async →
      exec .asyncCauseTaken s = .next (s.startKill g Cause.parityKill c.fatalTval c.pc 0xFFFFFFFF)) ∧
    (c.st = .running → c.async = [Cause.watchdog] → c.EntersNow Cause.watchdog →
      ∃ t : State, exec .asyncCauseTaken s = .next t ∧ Entered c (t.ctx g) Cause.watchdog c.asyncTval c.pc true s.cycle ∧
        (t.ctx g).async = [] ∧ t.mem = s.mem) ∧
    (∀ r, c.trap = some r → c.wait = .escalation → r.cause < 2 ^ 8 → c.uh = true → c.sh = false →
      ∃ t : State, exec .escalationLogged s = .next t ∧ (t.ctx g).st = .running ∧ (t.ctx g).sh = true ∧ (t.ctx g).prv = true ∧
        (t.ctx g).puh = true ∧ (t.ctx g).pprv = c.prv ∧ (t.ctx g).trappc = r.pc.setWidth 57 ∧ (t.ctx g).tval = r.tval ∧
        (t.ctx g).tcause.getLsbD 9 = true ∧ (t.ctx g).pc = c.tvecS.setWidth 64 + word (64 * r.cause) ∧ t.mem = s.mem ∧
        (t.part ((s.partOfCore (s.at g)).getD 0)).trapLog.seq = (s.part ((s.partOfCore (s.at g)).getD 0)).trapLog.seq + 1 ∧
        (t.part ((s.partOfCore (s.at g)).getD 0)).trapLog.records.head? =
          some [word (g + 2 ^ 32 * (tcauseOf r true false).toNat), r.pc, r.tval, s.time (dieOfCore (s.at g))])

/-- R83, R186, R190, R191, R193, R244, R254, R257, R258, R263: the steps that end accesses. RESULT_RETURN writes the long results that
are due; L1_FILL installs the sector of a load's request unless an invalidation came between; LOAD_DATA_RETURN writes the bytes, sign- or
zero-extended, or all ones where the host failed (R137), and ends the access; STORE_ACK ends a store, completes one that parked, or is a
request's report, with which its cause is recorded; PROBE_ECHO is a probe that reaches its bank's queue or its slice, or an echo counted
off. What a probe beyond the module waits for is the
model's choice (notes/assumptions/21.md). -/
def Obligations.AccessesEnd : Prop :=
  (∀ (s : State), let g := s.arg.who
    let c := s.ctx g
    let due := c.pend.filter fun p => p.isDue s.cycle
    due ≠ [] → ∃ t : State, exec .resultReturn s = .next t ∧ RegsAfter c (t.ctx g) (due.map Pend.write) ∧
      (t.ctx g).pend = c.pend.filter (fun p => !p.isDue s.cycle) ∧ (∀ h, h ≠ g → t.ctx h = s.ctx h) ∧ t.mem = s.mem) ∧
  (∀ (s : State) (a : Access) (p : Part) (x : BitVec 512), s.acc s.arg.who = some a → a.parts[s.arg.what - 1]? = some p →
    p.fill = some (x, false) → a.epoch = (s.core a.core).epoch → a.noFill.contains (p.addr.toNat / 64 * 64 / 256) = false →
      ∃ t : State, exec .l1Fill s = .next t ∧ (⟨p.addr.toNat / 64 * 64, x⟩ : Sector) ∈ (t.core a.core).l1d ∧
        t.ctxs = s.ctxs ∧ t.mem = s.mem) ∧
  (∀ (s : State) (a : Access) (n : Nat) (sg : Bool) (d : SReg), s.acc s.arg.who = some a → s.arg.what = 0 → a.due = s.cycle →
    s.sameCtx a.gid a.gen = true → a.fault = none → a.kind = .load n sg → (n = 1 ∨ n = 2 ∨ n = 4 ∨ n = 8) →
    a.dests = [.s d] → a.size = n → ⟨.s d, .load a.id⟩ ∈ (s.ctx a.gid).pend → d ≠ 0 → let c := s.ctx a.gid
      ∃ t : State, exec .loadDataReturn s = .next t ∧
        (t.ctx a.gid).getS d = (if a.allOnes then BitVec.allOnes 64
          else if sg then BitVec.ofInt 64 (sint (8 * n) (natOfBytes a.bytes))
          else BitVec.ofNat 64 (natOfBytes a.bytes)) ∧
        (∀ r, r ≠ d → (t.ctx a.gid).getS r = c.getS r) ∧ (t.ctx a.gid).v = c.v ∧ (t.ctx a.gid).m = c.m ∧
        (∀ q ∈ (t.ctx a.gid).pend, q.src ≠ .load a.id) ∧ (∀ b ∈ t.accs, b.id ≠ a.id) ∧
        (a.relaxed = false → (t.ctx a.gid).outstanding = none) ∧ t.mem = s.mem) ∧
  (∀ (s : State) (a : Access), s.acc s.arg.who = some a → a.due = s.cycle → s.arg.what = 0 → s.sameCtx a.gid a.gen = true →
    a.kind = .store → let c := s.ctx a.gid
    (a.fault = none → a.parks = false → ∃ t : State, exec .storeAck s = .next t ∧ (∀ b ∈ t.accs, b.id ≠ a.id) ∧
      (a.relaxed = false → (t.ctx a.gid).outstanding = none) ∧ (t.ctx a.gid).s = c.s ∧ t.mem = s.mem) ∧
    (∀ e, a.fault = none → a.parks = true → c.heldTail = some e → c.st = .parked → c.slot ≠ none →
      ∃ t : State, exec .storeAck s = .next t ∧ RegsAfter c (t.ctx a.gid) e.now ∧ (t.ctx a.gid).resuming = true ∧
        (t.ctx a.gid).heldTail = none ∧ t.mem = s.mem)) ∧
  (∀ (s : State) (a : Access) (p : Part) (k cause : Nat), s.acc s.arg.who = some a → s.arg.what = k + 1 → s.arg.val = cause →
    a.parts[k]? = some p → s.sameCtx a.gid a.gen = true → cause = Cause.objStore ∨ cause = Cause.translation →
    (s.ctx a.gid).twin = none → (s.ctx a.gid).rcause = 0 →
      (a.kind = .store → ∃ t : State, exec .storeAck s = .next t ∧ (t.ctx a.gid).rcause.toNat = cause ∧ (t.ctx a.gid).rtval = p.addr ∧
        (t.ctx a.gid).s = (s.ctx a.gid).s ∧ t.accs = s.accs ∧ t.mem = s.mem) ∧
      ((∃ n sg, a.kind = .load n sg) → ∃ t : State, exec .loadDataReturn s = .next t ∧ (t.ctx a.gid).rcause.toNat = cause ∧
        (t.ctx a.gid).rtval = p.addr ∧ (t.ctx a.gid).pend = (s.ctx a.gid).pend ∧ t.accs = s.accs ∧ t.mem = s.mem)) ∧
  (∀ (s : State), let g := s.arg.who
    let c := s.ctx g
    let b := s.arg.what
    b ∈ c.probes →
      (s.arg.val = 0 → (b < 2 ^ 14 ∨ s.groupServed g (b - 2 ^ 14) = true) → c.wait = .probes → (∃ x ∈ c.probes, x ≠ b) →
        ∃ t : State, exec .probeEcho s = .next t ∧ (t.ctx g).probes = c.probes.filter (fun x => x != b) ∧
          (t.ctx g).wait = .probes ∧ t.mem = s.mem) ∧
      (s.arg.val = 0 → 2 ^ 14 ≤ b → s.groupServed g (b - 2 ^ 14) = false → exec .probeEcho s = .next (s.post 4 .probeEcho g b 0)) ∧
      (∀ left, s.arg.val = left + 1 → 2 ^ 13 ≤ b → let sl := b - 2 ^ 13
        (s.sliceServed g sl = true → ∃ t : State, exec .probeEcho s = .next t ∧ t.ctxs = s.ctxs ∧ t.slices = s.slices ∧
          ∃ n ∈ t.agenda, n.ev = .probeEcho ∧ n.arg = ⟨g, b, 0, .none⟩ ∧
            n.at_ = s.cycle + (pathTime (s.at g) sl - pathTime (s.at g) sl / 2)) ∧
        (s.sliceServed g sl = false → ∃ t : State, exec .probeEcho s = .next t ∧ t.ctxs = s.ctxs ∧ t.mem = s.mem ∧
          g ∈ (t.slice sl).probers)) ∧
      (∀ left, s.arg.val = left + 1 → b < 2 ^ 13 → (s.cluster (clusterOf (b / 8))).leasedCore ≠ some (b / 8) →
        ((s.core (b / 8)).bank (b % 8)).accQ.length < 16 →
        ∃ t : State, exec .probeEcho s = .next t ∧ t.ctxs = s.ctxs ∧ t.mem = s.mem ∧
          ((t.core (b / 8)).bank (b % 8)).accQ = ((s.core (b / 8)).bank (b % 8)).accQ ++ [(probeMark + g, left)]))

/-- R241, R245, R254, R289, R297, R423: the acceptance of a request. It joins the queue of its slice, or of its bank unless an earlier
access to that bank is still under way; a bank whose queue is full holds it at its source for a cycle, and a core in hand-over holds
another core's for 64 cycles, an interval that is the model's choice (notes/assumptions/4.md). Memory has not changed yet. -/
def Obligations.RequestsAreAccepted : Prop :=
  ∀ (s : State) (a : Access) (p : Part), s.partAt s.arg.who s.arg.what = some (a, p) → p.stage = .sent →
    (s.ctx a.gid).wait ≠ .accepted → (s.ctx a.gid).wait ≠ .probes →
    (∀ sl sec, p.tgt = .slice sl sec → s.mustWait a p.tgt = false →
      ∃ t : State, exec .accessAccepted s = .next t ∧ SliceReq.part s.arg.who s.arg.what ∈ (t.slice sl).inQ ∧ t.mem = s.mem ∧
        (∃ q, (t.partAt s.arg.who s.arg.what).map (·.2) = some q ∧ q.stage = .accepted)) ∧
    (∀ k b row, p.tgt = .bank k b row → s.mustWait a p.tgt = false → a.bcmd = none → ((s.core k).bank b).accQ.length < 16 →
      (s.cluster (clusterOf k)).leasedCore ≠ some k →
      ∃ t : State, exec .accessAccepted s = .next t ∧ (s.arg.who, s.arg.what) ∈ ((t.core k).bank b).accQ ∧ t.mem = s.mem) ∧
    (∀ k b row cmd, p.tgt = .bank k b row → s.mustWait a p.tgt = false → a.bcmd = some cmd →
      ((s.core k).bank b).cmdQ.length < 4 → (s.cluster (clusterOf k)).leasedCore ≠ some k →
      ∃ t : State, exec .accessAccepted s = .next t ∧ cmd ∈ ((t.core k).bank b).cmdQ ∧ t.mem = s.mem) ∧
    (∀ k b row, p.tgt = .bank k b row → s.mustWait a p.tgt = false → a.bcmd = none →
      (∀ n, ((s.cluster (clusterOf k)).leasedCore ≠ some k ∧ 16 ≤ ((s.core k).bank b).accQ.length ∧ n = 1) ∨
          ((s.cluster (clusterOf k)).leasedCore = some k ∧ a.core ≠ k ∧ n = 64) →
        exec .accessAccepted s = .next (s.post n .accessAccepted s.arg.who s.arg.what))) ∧
    (s.mustWait a p.tgt = true →
      ∃ t : State, exec .accessAccepted s = .next t ∧ t.accs = s.accs ∧ t.mem = s.mem ∧
        ∃ n ∈ t.agenda, n.ev = .accessAccepted ∧ n.arg = ⟨s.arg.who, s.arg.what, 0, .none⟩ ∧ n.at_ = s.cycle + 1)

/-- R83, R240, R241, R242, R269, R284, R286 to R288, R295, R326, R385: one grant of a bank. A store of a core writes its bytes at their
places and nothing else (one with requests at slices once they have let it through, R78); a load reads them; a bank command writes one
row, BKRED its one row, BKSMX its pair in its last grant; a store of a domain that the bank fences, or to a typed sector, writes nothing.
Rows of other clusters' engines enter behind; a row pair goes to the matrix unit whose turn it is. The model's choices: when a BKSMX row's
inputs are read (notes/assumptions/26.md), 2^x (13.md), and that a refused store writes nothing anywhere (35.md). -/
def Obligations.BankGrantServesOne : Prop :=
  ∀ (s : State), let k := s.arg.who / 8
    let b := (s.core k).bank (s.arg.who % 8)
    (s.arg.what ≠ 0 → ∃ t : State, exec .bankGrant s = .next t ∧ t.mem = s.mem ∧ let n := Nat.min b.portQ (16 - b.accQ.length)
      ((t.core k).bank (s.arg.who % 8)).accQ = b.accQ ++ List.replicate n (engineRow, 0) ∧
        ((t.core k).bank (s.arg.who % 8)).portQ = b.portQ - n) ∧
    (∀ id j rest a p row, s.arg.what = 0 → s.grantClass b = some .access → b.accQ = (id, j) :: rest → proberOf id = none →
      s.partAt id j = some (a, p) → p.tgt = .bank k (s.arg.who % 8) row →
      let fence := s.fenced (dieOfCore k) a.domain a.domGen
      let ps := p.placesAt 0
      let typed := ps.any fun x => s.tag (x / 64) != 0
      let written := (ps.zip p.data).foldl (fun m x => memSet m x.1 x.2) s.mem
      ∃ t : State, exec .bankGrant s = .next t ∧ ((t.core k).bank (s.arg.who % 8)).accQ = rest ∧
        (∃ q, (t.partAt id j).map (·.2) = some q ∧ q.stage = .served ∧
          (∀ n sg, a.kind = .load n sg → ps.any (fun x => s.poison.contains (x / 64)) = false →
            q.data = ps.map fun x => memGet s.mem x)) ∧
        (a.kind = .store → fence = false → typed = false → a.whole = false → t.mem = written) ∧
        (a.kind = .store → fence = false → typed = false → a.whole = true → a.allJudged = true → (∀ q ∈ a.parts, q.places = []) →
          t.mem = if a.fault = none then written else s.mem) ∧
        (a.kind = .store → fence = false → typed = true → (a.whole = false ∨ a.allJudged = true) → t.mem = s.mem ∧
          (a.fault = none → ∃ x, t.acc id = some x ∧ x.fault = some (Cause.objStore, p.addr))) ∧
        (a.whole = false → (a.kind ≠ .store ∨ fence = true) → t.mem = s.mem)) ∧
    (∀ c rest a, s.arg.what = 0 → s.grantClass b = some .command → b.cmdQ = c :: rest → s.acc c.acc = some a → a.whole = false →
      s.fenced (dieOfCore k) a.domain a.domGen = false → s.rowPoison k c = false →
      let place := slabPlace k (c.dst + 256 * c.row)
      let row := memBytes s.mem place 32
      let row0 := memBytes s.mem (slabPlace k c.dst) 32
      let src := memBytes s.mem (slabPlace k (c.src + 256 * c.row)) 32
      ∃ t : State, exec .bankGrant s = .next t ∧ let q := ((t.core k).bank (s.arg.who % 8)).cmdQ
        (c.op ≠ 0x4C → c.op ≠ 0x4F → t.mem = memWrite s.mem place (c.rowOf row src)) ∧
        (c.op = 0x4F → t.mem = memWrite s.mem (slabPlace k c.dst) (c.rowOf row0 src)) ∧
        (c.op ≠ 0x4C → c.row + 1 < c.rows → q = { c with row := c.row + 1 } :: rest) ∧
        (c.op = 0x4C → c.row + 1 < c.rows → t.mem = s.mem ∧ ∃ d, q = d :: rest ∧ d.row = c.row + 1 ∧
          d.xs.reverse = c.xs.reverse ++ c.inputs (memBytes s.mem (slabPlace k (c.dst + 256 * (c.row + 1))) 32)) ∧
        (c.op = 0x4C → c.rows ≤ c.row + 1 → t.mem = if c.rows = 1 then s.mem else
          let x := softmaxUpdate (natOfBytes (row0.take 4)) (natOfBytes ((row0.drop 4).take 4)) c.xs.reverse
          memWrite s.mem (slabPlace k c.dst) (bytesOfNat 4 x.1 ++ bytesOfNat 4 x.2 ++ row0.drop 8)) ∧
        (c.rows ≤ c.row + 1 → q = rest)) ∧
    (s.arg.what = 0 → s.grantClass b = some .matrix →
      ∃ t : State, exec .bankGrant s = .next t ∧ ((t.core k).bank (s.arg.who % 8)).mxQ = b.grantMatrix.mxQ ∧
        (∀ u, b.nextUnit = some u → ((t.core k).bank (s.arg.who % 8)).mxLast = u ∧ (t.core u).mx.lastPair = s.cycle) ∧
        ((t.core k).bank (s.arg.who % 8)).mxFrame = some (s.cycle / 4) ∧ t.mem = s.mem) ∧
    (s.arg.what = 0 → s.grantClass b = some .copy →
      ∃ t : State, exec .bankGrant s = .next t ∧ ((t.core k).bank (s.arg.who % 8)).copyQ = b.copyQ - 1 ∧ t.mem = s.mem)

/-- R69, R71 to R74, R78, R83, R84, R246 to R249, R252, R428: the steps of a slice and its channel, and R137: the host's completion. The
data port serves one request a cycle: a load or store of a sector that L2 holds takes effect, a store of several requests by noting its
places until the last may; a page without the right fails with TRANSLATION, a report of it on its way for a relaxed access; a request of a
line that moves is held; a load of a barrier's member sector goes on to the header's slice. A walk reads the page's entry, keeps a usable
one and serves what waited. The channel takes its oldest request, and its reads end in order; a fill makes its sector valid and ends its
request, and a store's fill the loads that joined it. The model's choices: that a store is written as a whole (notes/assumptions/35.md),
the forwarded load's way (59.md), the fills of stores (22.md, 58.md) and write-backs (9.md). -/
def Obligations.SliceStepsServe : Prop :=
  (∀ (s : State) (id j sec : Nat) (a : Access) (p : Part) (l : L2Line) (n : Nat) (sg : Bool), s.arg.what = 0 →
    let sl := s.arg.who
    (s.slice sl).dataAt ≤ s.cycle → (s.slice sl).inQ = [.part id j] → s.partAt id j = some (a, p) → p.tgt = .slice sl sec →
      (s.slice sl).line (sec / 4) = some l → bits l.entry 5 5 = 0 → l.valid.getLsbD (sec % 4) = true →
      (∀ q ∈ (s.slice sl).chanQ ++ (s.slice sl).filling, q.1 ≠ sec) → s.heldBack (.part id j) = false →
      let ps := p.placesAt l.entry
      (s.lineMoving sl sec = true → (a.kind = .load n sg ∧ s.pageGrants (sl / Config.slices) l.entry 1 = true) ∨
          (a.kind = .store ∧ s.pageGrants (sl / Config.slices) l.entry 2 = true) →
        ∃ t : State, exec .sliceDataServe s = .next t ∧ t.mem = s.mem ∧ t.accs = s.accs ∧ .part id j ∈ (t.slice sl).moving) ∧
      (a.kind = .store → s.lineMoving sl sec = false → s.pageGrants (sl / Config.slices) l.entry 2 = true →
        s.fenced (sl / Config.slices) a.domain a.domGen = false → (∀ x ∈ ps, s.tag (x / 64) = 0) →
        ∃ t : State, exec .sliceDataServe s = .next t ∧ (t.slice sl).dataAt = s.cycle + 1 ∧ (t.slice sl).inQ = [] ∧
          let written := (ps.zip p.data).foldl (fun m x => memSet m x.1 x.2) s.mem
          (a.whole = false ∨ (a.whole = true ∧ a.parts = [p] ∧ a.fault = none) → t.mem = written) ∧
          (a.whole = true → (∃ i q, i ≠ j ∧ a.parts[i]? = some q ∧ q.judged = true ∧ q.stage ≠ .served) → t.mem = s.mem ∧
            ∃ q, (t.partAt id j).map (·.2) = some q ∧ q.stage = .served ∧ q.places = ps)) ∧
      (a.kind = .load n sg → s.lineMoving sl sec = false → s.pageGrants (sl / Config.slices) l.entry 1 = true →
        s.forwardTo sl (.part id j) l.entry = none → (∀ x ∈ ps, x / 64 ∉ s.poison) →
        ∃ t : State, exec .sliceDataServe s = .next t ∧ t.mem = s.mem ∧ (t.slice sl).dataAt = s.cycle + 1 ∧
          (∃ q, (t.partAt id j).map (·.2) = some q ∧ q.stage = .served ∧ q.data = ps.map fun x => memGet s.mem x)) ∧
      (∀ dst, a.kind = .load n sg → s.lineMoving sl sec = false → s.pageGrants (sl / Config.slices) l.entry 1 = true →
        s.forwardTo sl (.part id j) l.entry = some dst →
        ∃ t : State, exec .sliceDataServe s = .next t ∧ t.mem = s.mem ∧ t.accs = s.accs ∧ (t.slice sl).inQ = [] ∧
          ∃ m ∈ t.agenda, m.ev = .sliceDataServe ∧ m.arg = ⟨dst, forwardMark + id, j, .none⟩ ∧
            s.cycle + 85 ≤ m.at_ ∧ m.at_ ≤ s.cycle + 115) ∧
      (a.kind = .load n sg → s.pageGrants (sl / Config.slices) l.entry 1 = false → a.fault = none →
        ∃ t : State, exec .sliceDataServe s = .next t ∧ t.mem = s.mem ∧
          (a.relaxed = true → ∃ m ∈ t.agenda, m.ev = .loadDataReturn ∧ m.arg = ⟨id, j + 1, Cause.translation, .none⟩) ∧
          ∃ b, t.acc id = some b ∧ b.fault = some (Cause.translation, p.addr))) ∧
  (∀ (s : State) (id j : Nat), s.arg = ⟨s.arg.who, forwardMark + id, j, .none⟩ →
    ∃ t : State, exec .sliceDataServe s = .next t ∧ t.mem = s.mem ∧
      (t.slice s.arg.who).inQ = (s.slice s.arg.who).inQ ++ [.part id j]) ∧
  (∀ (s : State) (id j sec : Nat) (a : Access) (p : Part), s.arg.what = 0 → let sl := s.arg.who
    (s.slice sl).dataAt ≤ s.cycle → (s.slice sl).inQ = [.part id j] → s.partAt id j = some (a, p) → p.tgt = .slice sl sec →
      s.heldBack (.part id j) = false → (s.slice sl).line (sec / 4) = none → (∀ x ∈ (s.slice sl).tlb, x.1 ≠ sec / 2 ^ 19) →
      sec / 2 ^ 19 ∉ (s.slice sl).walks → sec / 2 ^ 19 ∉ (s.slice sl).walkQ → (s.slice sl).walks.length < 64 →
      ∃ t : State, exec .sliceDataServe s = .next t ∧ sec / 2 ^ 19 ∈ (t.slice sl).walks ∧
        (sec / 2 ^ 19, SliceReq.part id j) ∈ (t.slice sl).merged ∧ t.mem = s.mem ∧
        ∃ n ∈ t.agenda, n.ev = .walkComplete ∧ n.arg = ⟨sl, sec / 2 ^ 19, 0, .none⟩ ∧ s.cycle + 420 ≤ n.at_ ∧
          n.at_ ≤ s.cycle + 560) ∧
  (∀ (s : State), let sl := s.arg.who
    let e := s.pageEntry (sl / Config.slices) s.arg.what
    s.arg.what ∈ (s.slice sl).walks → (s.slice sl).merged = [] →
      ∃ t : State, exec .walkComplete s = .next t ∧ (t.slice sl).walks.length ≤ (s.slice sl).walks.length ∧ t.mem = s.mem ∧
        (s.entryUsable (sl / Config.slices) e = true → (s.arg.what, e) ∈ (t.slice sl).tlb) ∧
        (s.entryUsable (sl / Config.slices) e = false → (t.slice sl).tlb = (s.slice sl).tlb ∧ (s.arg.what, s.cycle) ∈ (t.slice sl).absent)) ∧
  (∀ (s : State) (sec : Nat) (r : SliceReq) (rest : List (Nat × SliceReq)), let sl := s.arg.who
    (s.slice sl).chanQ = (sec, r) :: rest → (s.slice sl).filling.length < 64 → s.lineMoving sl sec = false →
      (r ≠ .writeBack → ∃ t : State, exec .hbmChannelServe s = .next t ∧ (t.slice sl).chanQ = rest ∧
        (t.slice sl).filling = (s.slice sl).filling ++ [(sec, r)] ∧ t.mem = s.mem ∧
        ∃ n ∈ t.agenda, n.ev = .l2Fill ∧ n.arg = ⟨sl, sec, 0, .none⟩ ∧ s.cycle + 250 ≤ n.at_ ∧ n.at_ ≤ s.cycle + 330 ∧
          let ch := s.channelOf sl sec
          ((s.slice ch).chanAt + 2 ≤ s.cycle + 330 → (s.slice ch).chanAt + 2 ≤ n.at_)) ∧
      (r = .writeBack → ∃ t : State, exec .hbmChannelServe s = .next t ∧ (t.slice sl).chanQ = rest ∧
        (t.slice sl).filling = (s.slice sl).filling ∧ t.mem = s.mem)) ∧
  (∀ (s : State) (id j : Nat) (a : Access) (p : Part), let sl := s.arg.who
    let e := s.entryOf (sl / Config.slices) (64 * s.arg.what)
    (s.slice sl).filling = [(s.arg.what, .part id j)] → s.partAt id j = some (a, p) → a.whole = false → bits e 5 5 = 0 →
      s.entryUsable (sl / Config.slices) e = true →
      ∃ t : State, exec .l2Fill s = .next t ∧ (t.slice sl).filling = [] ∧ t.mem = s.mem ∧
        (∃ l, (t.slice sl).line (s.arg.what / 4) = some l ∧ l.entry = e ∧ l.valid.getLsbD (s.arg.what % 4) = true) ∧
        (∃ q, (t.partAt id j).map (·.2) = some q ∧ q.stage = .served)) ∧
  (∀ (s : State) (id j : Nat) (a : Access) (p : Part), let sl := s.arg.who
    (s.slice sl).filling = [(s.arg.what, .merge)] → (s.slice sl).joined = [(s.arg.what, .part id j)] →
      s.partAt id j = some (a, p) → a.whole = false →
      ∃ t : State, exec .l2Fill s = .next t ∧ (t.slice sl).filling = [] ∧ (t.slice sl).joined = [] ∧ t.mem = s.mem ∧
        (∃ q, (t.partAt id j).map (·.2) = some q ∧ q.stage = .served)) ∧
  (∀ (s : State) (a : Access) (p : Part) (d : List Byte) (bad : Bool), s.partAt s.arg.who s.arg.what = some (a, p) →
    p.stage = .accepted → a.whole = false → s.arg.ext = .bytes d bad →
      ∃ t : State, exec .hostWindowCompletion s = .next t ∧ t.mem = s.mem ∧
        (t.acc s.arg.who).map (·.allOnes) = some (bad || a.allOnes) ∧
        (∃ q, (t.partAt s.arg.who s.arg.what).map (·.2) = some q ∧ q.stage = .served ∧
          q.data = if bad then List.replicate a.size 0xFF else d))

/-- R94, R98, R101, R114, R118, R120, R122, R123, R126: a home that takes a request on a counter, a held lock (LGIVE), a condition or
a cell without waiters grants it when its condition holds: the words change as the rule says and the result leaves with DONE. When it
does not hold, .nw is told WOULD_WAIT with nothing changed; another is listed with REGISTERED, or without room refused with
OBJ_WAITFULL. That the processor takes a request only with its pages at hand (notes/assumptions/60.md) and unfenced (34.md) is the
model's reading. -/
def Obligations.HomesGrantRequests : Prop :=
  ∀ (s : State) (r : ObjReq) (tag : Nat) (u : ObjRule), let p := s.placeOf r.addr
    s.AtHome r → s.waitsOf r.addr = [] → (s.slice s.arg.who).abandoned = [] → s.Steady r.addr [p / 64] →
    objRule r.op (wordAt s.mem p) (wordAt s.mem (p + 8)) r.operand = some (tag, u) → s.tag (p / 64) = tag →
      (u.holds = true →
        ∃ t : State, exec .objectRequestArrival s = .next t ∧ t.Answered r 0 u.result 0 ∧ s.OnlySectors t [p / 64] ∧
          (∀ k, k < 7 → wordAt t.mem (p + 8 * k) = u.wordOf k (wordAt s.mem (p + 8 * k))) ∧
          (t.slice s.arg.who).objQ = [] ∧ (t.slice s.arg.who).objAt = s.cycle + 2 ∧
          (t.slice s.arg.who).waits = (s.slice s.arg.who).waits) ∧
      (u.holds = false → r.nw = true →
        ∃ t : State, exec .objectRequestArrival s = .next t ∧ t.Answered r 1 0 0 ∧ t.mem = s.mem ∧ t.tags = s.tags ∧
          (t.slice s.arg.who).waits = (s.slice s.arg.who).waits) ∧
      (∀ spill, u.holds = false → r.nw = false → s.waitRoom r = some spill →
        ∃ t : State, exec .objectRequestArrival s = .next t ∧ t.Answered r 4 0 0 ∧ s.OnlySectors t [p / 64] ∧
          (∀ k, k < 7 → wordAt t.mem (p + 8 * k) = wordAt s.mem (p + 8 * k)) ∧
          (wordAt t.mem (p + 56)).toNat % 2 ^ 32 = 1 ∧
          ∃ e, (t.slice s.arg.who).waits = (s.slice s.arg.who).waits ++ [e] ∧ e.req = r ∧ e.addr = waitKey r.addr ∧
            e.spilled = spill) ∧
      (u.holds = false → r.nw = false → s.waitRoom r = none →
        ∃ t : State, exec .objectRequestArrival s = .next t ∧ t.Answered r 3 r.addr Cause.objWaitfull ∧ t.mem = s.mem ∧
          t.tags = s.tags ∧ (t.slice s.arg.who).waits = (s.slice s.arg.who).waits)

/-- R73, R84, R85, R98, R102, R116 to R118, R120, R124, R125, R297: further requests at their homes. A message becomes a queued
request; the oldest, whose page is not at hand, stays first in the queue while its walk is under way; one behind an earlier access of
its context waits; a CADD that satisfies the one waiting CWAIT sends its WAKE; atomics write their word; OFREE of a counter clears its tag or
is refused with waiters; OREAD reads; a free lock is taken, a held one not by .nw. The model's choices: that the request for a walk
carries the port that waits (notes/assumptions/60.md), that an OREAD of a barrier's member sector goes on to the slice of the header
(59.md), and what its result is on a member or with a high operand (11.md). -/
def Obligations.HomesServeObjects : Prop :=
  (∀ (s : State) (n : Nat) (r : ObjReq), s.arg.what = n + 1 → s.msg n = some (.request r) →
    ∃ t : State, exec .objectRequestArrival s = .next t ∧ (t.slice s.arg.who).objQ = (s.slice s.arg.who).objQ ++ [r] ∧
      t.mem = s.mem ∧ (∀ m ∈ t.net, m.id ≠ n) ∧ ∃ d ∈ t.agenda, d.ev = .objectRequestArrival ∧ d.arg.who = s.arg.who ∧ d.arg.what = 0) ∧
  (∀ (s : State) (r : ObjReq), let page := bits r.addr 44 0 / 2 ^ 25
    s.arg.what = 0 → (s.slice s.arg.who).objAt ≤ s.cycle → (s.slice s.arg.who).objQ = [r] →
    homeSlice r.addr = s.arg.who → bits r.addr 63 46 = Config.moduleNumber → s.objectWaits s.arg.who r = false → r.op ≠ 0 →
    s.mustWalk (homeDie r.addr) (bits r.addr 44 0) = true → s.lineMoving s.arg.who (bits (r.addr &&& ~~~0xFF) 44 0 / 64) = false →
    (s.slice s.arg.who).walking page = false → (s.slice s.arg.who).walks.length < 64 → (s.slice s.arg.who).merged = [] →
      ∃ t : State, exec .objectRequestArrival s = .next t ∧ t.mem = s.mem ∧ t.tags = s.tags ∧ (t.slice s.arg.who).objQ = [r] ∧
        (page, SliceReq.visit (s.arg.who + 1)) ∈ (t.slice s.arg.who).merged ∧ page ∈ (t.slice s.arg.who).walks ∧
        ∃ d ∈ t.agenda, d.ev = .walkComplete ∧ d.arg.who = s.arg.who ∧ d.arg.what = page ∧ s.cycle + 420 ≤ d.at_ ∧ d.at_ ≤ s.cycle + 560) ∧
  (∀ (s : State) (r : ObjReq), s.arg.what = 0 → (s.slice s.arg.who).objAt ≤ s.cycle → (s.slice s.arg.who).objQ = [r] →
    s.objectWaits s.arg.who r = true →
      ∃ t : State, exec .objectRequestArrival s = .next t ∧ t.slices = s.slices ∧ t.mem = s.mem ∧ t.tags = s.tags) ∧
  (∀ (s : State) (r : ObjReq), let p := s.placeOf r.addr
    let d := fun k => wordAt s.mem (p + 8 * k)
    s.AtHome r →
    (∀ w : WaitEntry, r.op = 0x2B → s.tag (p / 64) = 1 → s.Steady r.addr [p / 64] →
      (s.slice s.arg.who).waits = [w] → w.addr = waitKey r.addr → w.req.addr = r.addr → w.req.op = 0x2C → w.spilled = false →
      w.req.eng = 0 → w.req.ctxid < 0xFFFFFF00 →
        ∃ t : State, exec .objectRequestArrival s = .next t ∧ t.Answered r 0 (d 0) 0 ∧ wordAt t.mem p = d 0 + r.operand ∧
          (0 ≤ (d 0 + r.operand - w.req.operand).toInt → (t.slice s.arg.who).waits = [] ∧
            ∃ m ∈ t.net, m.body = .wakeUp w.req (d 0 + r.operand) 0 ∧
              ∃ n ∈ t.agenda, n.ev = .wake ∧ n.arg.who = w.req.ctxid ∧ n.arg.what = m.id) ∧
          ((d 0 + r.operand - w.req.operand).toInt < 0 → (t.slice s.arg.who).waits = [w])) ∧
    (∀ b : Nat, 0x40 ≤ r.op → r.op ≤ 0x47 → s.tag (p / 64) = 0 → b = (if r.w32 then 4 else 8) → r.addr.toNat % b = 0 →
      let old := natOfBytes (memBytes s.mem p b)
      let x := fun (y : Word) => y.toNat % 2 ^ (8 * b)
      ∃ t : State, exec .objectRequestArrival s = .next t ∧ s.OnlySectors t [p / 64] ∧
        t.Answered r 0 (if r.w32 then BitVec.signExtend 64 (BitVec.ofNat 32 old) else word old) 0 ∧
        natOfBytes (memBytes t.mem p b) = atomicResult r.op (8 * b) old (x r.operand) (x r.expect) ∧
        (∀ y, y < p ∨ p + b ≤ y → memGet t.mem y = memGet s.mem y)) ∧
    (0x40 ≤ r.op → s.tag (p / 64) ≠ 0 →
      ∃ t : State, exec .objectRequestArrival s = .next t ∧ t.Answered r 3 r.addr Cause.objStore ∧ t.mem = s.mem ∧ t.tags = s.tags) ∧
    (r.op = 0x29 → s.tag (p / 64) = 1 →
      ((d 7).toNat % 2 ^ 32 = 0 →
        ∃ t : State, exec .objectRequestArrival s = .next t ∧ t.Answered r 0 0 0 ∧ t.mem = s.mem ∧
          (rising 0 s.tags = true → t.tag (p / 64) = 0)) ∧
      ((d 7).toNat % 2 ^ 32 ≠ 0 →
        ∃ t : State, exec .objectRequestArrival s = .next t ∧ t.Answered r 3 r.addr Cause.objType ∧ t.mem = s.mem ∧ t.tags = s.tags)) ∧
    (∀ dst : Nat, r.op = 0x2A → s.holderSlice (s.sectorOf r.addr) = dst → dst ≠ s.arg.who →
      ∃ t : State, exec .objectRequestArrival s = .next t ∧ t.mem = s.mem ∧ t.tags = s.tags ∧
        ∃ x ∈ t.net, x.body = .request r ∧ ∃ n ∈ t.agenda, n.ev = .objectRequestArrival ∧ n.arg.who = dst ∧
          n.arg.what = x.id + 1 ∧ s.cycle + 85 ≤ n.at_ ∧ n.at_ ≤ s.cycle + 115) ∧
    (r.op = 0x2A → s.holderSlice (s.sectorOf r.addr) = s.arg.who →
      ∃ t : State, exec .objectRequestArrival s = .next t ∧ t.mem = s.mem ∧ t.tags = s.tags ∧
        (∀ k, k < 8 → r.operand.toNat % 16 = k → t.Answered r 0 (d k) 0) ∧
        (r.operand.toNat % 16 = 8 → t.Answered r 0 (word (s.tag (p / 64))) 0) ∧
        (9 ≤ r.operand.toNat % 16 → t.Answered r 0 0 0)) ∧
    (r.op = 0x31 → s.tag (p / 64) = 4 → s.waitsOf r.addr = [] → s.Steady r.addr [p / 64] →
      (d 1 = d 0 →
        ∃ t : State, exec .objectRequestArrival s = .next t ∧ t.Answered r 0 (d 0) 0 ∧ wordAt t.mem p = d 0 + 1 ∧
          wordAt t.mem (p + 8) = d 1 ∧ s.OnlySectors t [p / 64]) ∧
      (d 1 ≠ d 0 → r.nw = true →
        ∃ t : State, exec .objectRequestArrival s = .next t ∧ t.Answered r 1 0 0 ∧ t.mem = s.mem ∧ t.tags = s.tags)))

/-- R88 to R93, R98, R106 to R108, R115, R119, R121: OINIT, barriers and queues at their homes. OINIT types a sector that holds an image of
its type, asks the home of a barrier's parent first, and is refused for any other sector. BARR and BARW count a member's arrival and
complete the phases that are due; BARW and BWAIT are answered when their phase has passed, else .nw is told so or they are listed; a member's
fourth arrival waits; a number that is no member's is refused. QPUT and QGET copy an entry of any size and move their end of the
queue. The model's choices: how an OINIT waits for the parent's answer (notes/assumptions/27.md), and that a request is taken only with its
pages at hand (60.md). -/
def Obligations.HomesInitArriveAndQueue : Prop :=
  (∀ (s : State) (r q : ObjReq) (n : Nat), let p := s.placeOf r.addr
    let d := fun k => wordAt s.mem (p + 8 * k)
    memWf s.mem → s.arg.what = 0 → (s.slice s.arg.who).objAt ≤ s.cycle → (s.slice s.arg.who).objQ = [q] → q.op = 0 → q.lane = 0x28 →
    q.operand = r.addr → (s.slice s.arg.who).asking = [r] → homeSlice r.addr = s.arg.who → r.addr.toNat % 64 = 0 → r.parts = [] → r.eng = 0 →
    r.operand = 2 → s.tag (p / 64) = 0 → Image (homeDie r.addr) 2 d → (d 0).toNat ≤ 256 * n → 256 * n < (d 0).toNat + 256 →
    s.MembersFree r.addr n → s.Laid r.addr n → d 3 = q.addr → d 4 = q.expect → bits q.addr 63 46 = Config.moduleNumber → q.addr.toNat % 64 = 0 →
    q.addr ≠ 0 →
      ∃ t : State, exec .objectRequestArrival s = .next t ∧ (t.slice s.arg.who).asking = [] ∧
        (q.nw = false → t.Answered r 0 0 0 ∧ s.Typed t r.addr 2 n) ∧
        (q.nw = true → t.Answered r 3 r.addr Cause.objType ∧ t.mem = s.mem ∧ t.tags = s.tags)) ∧
  (∀ (s : State) (r : ObjReq), let p := s.placeOf r.addr
    let d := fun k => wordAt s.mem (p + 8 * k)
    s.AtHome r →
    (∀ typ n : Nat, r.op = 0x28 → r.operand.toNat = typ → n = (if typ = 2 then ((d 0).toNat + 255) / 256 else 0) →
      (s.tag (p / 64) = 0 → Image (homeDie r.addr) typ d → (typ = 2 → d 3 = 0 ∧ s.MembersFree r.addr n) → s.Laid r.addr n →
        ∃ t : State, exec .objectRequestArrival s = .next t ∧ t.Answered r 0 0 0 ∧ s.Typed t r.addr typ n) ∧
      (s.tag (p / 64) = 0 → Image (homeDie r.addr) typ d → typ = 2 → s.MembersFree r.addr n → d 3 ≠ 0 →
        bits (d 3) 63 46 = Config.moduleNumber → (d 3).toNat % 64 = 0 →
        ∃ t : State, exec .objectRequestArrival s = .next t ∧ t.mem = s.mem ∧ t.tags = s.tags ∧
          (t.slice s.arg.who).asking = (s.slice s.arg.who).asking ++ [r] ∧
          ∃ x ∈ t.net, ∃ q : ObjReq, x.body = .request q ∧ q.op = 0x28 ∧ q.addr = d 3 ∧ q.operand = r.addr ∧ q.expect = d 4 ∧
            ∃ e ∈ t.agenda, e.ev = .objectRequestArrival ∧ e.arg.who = homeSlice (d 3) ∧ e.arg.what = x.id + 1) ∧
      (s.tag (p / 64) ≠ 0 ∨ ¬ Image (homeDie r.addr) typ d ∨ (typ = 2 ∧ ¬ s.MembersFree r.addr n) ∨
          (typ = 2 ∧ d 3 ≠ 0 ∧ (bits (d 3) 63 46 ≠ Config.moduleNumber ∨ (d 3).toNat % 64 ≠ 0)) →
        ∃ t : State, exec .objectRequestArrival s = .next t ∧ t.Answered r 3 r.addr Cause.objType ∧ t.mem = s.mem ∧ t.tags = s.tags)) ∧
    (∀ m n : Nat, let o := s.object r.addr
      r.op = 0x2E ∨ r.op = 0x30 → s.tag (p / 64) = 2 → s.waitsOf r.addr = [] → m = r.operand.toNat → n = memberSectors o.members → s.Laid r.addr n →
      let due := o.local_ + BitVec.ofNat 32 (o.lead m + 1)
      (m < o.members → o.lead m < 3 → (r.op = 0x30 → r.nw = false → (s.waitRoom r).isSome = true) →
        ∃ t : State, exec .objectRequestArrival s = .next t ∧ s.Arrived t r.addr m ∧
          (∀ x, x / 64 ∉ s.laidSectors r.addr n → memGet t.mem x = memGet s.mem x) ∧
          (r.op = 0x2E ∨ 0 ≤ ((t.object r.addr).phase - due).toInt → t.Answered r 0 (due.setWidth 64) 0) ∧
          (r.op = 0x30 → ((t.object r.addr).phase - due).toInt < 0 →
            (r.nw = true → t.Answered r 2 (due.setWidth 64) 0) ∧
            (r.nw = false → t.Answered r 4 0 0 ∧ ∃ e, (t.slice s.arg.who).waits = (s.slice s.arg.who).waits ++ [e] ∧ e.req = r ∧
              e.arrived = true ∧ e.target = due.setWidth 64))) ∧
      (m < o.members → o.lead m = 3 →
        (r.nw = true → ∃ t : State, exec .objectRequestArrival s = .next t ∧ t.Answered r 1 0 0 ∧ t.mem = s.mem ∧ t.tags = s.tags) ∧
        (r.nw = false → (s.waitRoom r).isSome = true →
          ∃ t : State, exec .objectRequestArrival s = .next t ∧ t.Answered r 4 0 0 ∧ (t.object r.addr).leads = o.leads ∧
            ∃ e, (t.slice s.arg.who).waits = (s.slice s.arg.who).waits ++ [e] ∧ e.req = r ∧ e.arrived = false)) ∧
      (o.members ≤ m →
        ∃ t : State, exec .objectRequestArrival s = .next t ∧ t.Answered r 3 r.addr Cause.objType ∧ t.mem = s.mem ∧ t.tags = s.tags)) ∧
    (∀ n : Nat, let o := s.object r.addr
      r.op = 0x2F → s.tag (p / 64) = 2 → s.waitsOf r.addr = [] → n = memberSectors o.members → s.Laid r.addr n →
      (0 ≤ (o.phase - r.operand.setWidth 32).toInt →
        ∃ t : State, exec .objectRequestArrival s = .next t ∧ t.Answered r 0 (o.phase.setWidth 64) 0 ∧ (t.object r.addr).leads = o.leads ∧
          (∀ k, k < 7 → wordAt t.mem (p + 8 * k) = d k) ∧ ∀ x, x / 64 ∉ s.laidSectors r.addr n → memGet t.mem x = memGet s.mem x) ∧
      ((o.phase - r.operand.setWidth 32).toInt < 0 → r.nw = true →
        ∃ t : State, exec .objectRequestArrival s = .next t ∧ t.Answered r 1 0 0 ∧ t.mem = s.mem ∧ t.tags = s.tags)) ∧
    (∀ code n : Nat, let cap := (d 1).toNat % 2 ^ 17
      let k := if r.op = 0x33 then d 3 else d 2
      let slot := fun i => s.placeOf (word (bits (d 0) 56 0 + k.toNat % cap * n) + word i)
      let mine := fun i => s.placeOf (r.operand + word i)
      let wr := (List.range n).map fun i => if r.op = 0x33 then slot i else if n = 8 then p else mine i
      let sectors := p / 64 :: wr.map (· / 64)
      r.op = 0x33 ∨ r.op = 0x34 → s.tag (p / 64) = 5 → s.waitsOf r.addr = [] → code = (d 1).toNat / 2 ^ 32 % 8 → code < 5 →
      n = [8, 16, 32, 64, 256].getD code 0 → (if r.op = 0x33 then (d 3 - d 2).toNat < cap else 0 < (d 3 - d 2).toNat) →
      s.copyCause r (s.object r.addr) = none → s.ringPoison r (s.object r.addr) = false → s.Steady r.addr sectors →
      (r.op = 0x33 ∨ n ≠ 8 → wr.Nodup ∧ p / 64 ∉ wr.map (· / 64)) →
        ∃ t : State, exec .objectRequestArrival s = .next t ∧ s.OnlySectors t sectors ∧
          wordAt t.mem (p + 16) = (if r.op = 0x33 then d 2 else d 2 + 1) ∧ wordAt t.mem (p + 24) = (if r.op = 0x33 then d 3 + 1 else d 3) ∧
          t.Answered r 0 (if r.op = 0x34 ∧ n = 8 then wordAt s.mem (slot 0) else k) 0 ∧
          (r.op = 0x33 → n = 8 → ∀ i, i < 8 → memGet t.mem (slot i) = (bytesOfNat 8 r.operand.toNat).getD i 0) ∧
          (n ≠ 8 → ∀ i, i < n → memGet t.mem (if r.op = 0x33 then slot i else mine i) =
            memGet s.mem (if r.op = 0x33 then mine i else slot i))))

/-- R85, R94, R98, R100 to R102, R107, R108, R111, R411, R423: replies, WAKEs and parents' answers at their receivers, and the return of
spilled entries. DONE completes the parked bundle with its results and, for an acquire, empties the L1 data cache; REGISTERED shows the
wait; REFUSED raises the cause at the bundle; a granted WAKE completes it, and is held while its core is handed over; a parent's answer
takes its place in the order of the child's object port, and there a refusal faults the child and a completed phase of the parent advances
the child's. The results that .nw and .ret write (notes/assumptions/11.md) are the model's reading. -/
def Obligations.RepliesReachRequesters : Prop :=
  (∀ (s : State) (r : ObjReq) (code : Nat) (value : Word) (cause : Nat) (reg : Bool) (e : Effect), let g := r.ctxid
    let c := s.ctx g
    s.msg s.arg.what = some (.objReply r code value cause) → r.window = none → r.eng = 0 → g < 0xFFFFFF00 →
      s.sameCtx g r.gen = true → c.wait = .object r.id reg → c.st = .parked → c.slot ≠ none → c.heldTail = some e →
        ((code = 0 ∨ code = 1 ∨ code = 2) →
          ∃ t : State, exec .objectReply s = .next t ∧ RegsAfter c (t.ctx g) (r.resultWrites c.dest code value ++ e.now) ∧
            (t.ctx g).resuming = true ∧ (t.ctx g).heldTail = none ∧ t.mem = s.mem ∧
            (acquireOp r.op = true → code = 0 → (t.core (s.at g)).l1d = []) ∧ (∀ m ∈ t.net, m.id ≠ s.arg.what)) ∧
        (code = 4 → ∃ t : State, exec .objectReply s = .next t ∧ (t.ctx g).wait = .object r.id true ∧ (t.ctx g).st = .parked ∧
          (t.ctx g).s = c.s ∧ t.mem = s.mem) ∧
        (code = 3 → c.EntersNow cause →
          ∃ t : State, exec .objectReply s = .next t ∧ Entered c (t.ctx g) cause value c.heldPc false s.cycle ∧ t.mem = s.mem)) ∧
  (∀ (r : ObjReq) (d : SReg) (code : Nat) (value : Word),
    (r.nw = false → r.ret = false → alwaysRet r.op = false → r.resultWrites d code value = []) ∧
    (r.nw = false → (r.ret = true ∨ alwaysRet r.op = true) → r.resultWrites d code value = [setS d value]) ∧
    (r.nw = true → r.ret = false → alwaysRet r.op = false → r.resultWrites d 0 value = [setS d 0]) ∧
    (r.nw = true → (code ≠ 0 ∨ r.ret = true ∨ alwaysRet r.op = true) →
      r.resultWrites d code value = [setS d (word code), setS (SReg.next d 1) value])) ∧
  (∀ (s : State) (r : ObjReq) (value : Word) (e : Effect), let g := r.ctxid
    let c := s.ctx g
    s.msg s.arg.what = some (.wakeUp r value 0) → r.window = none → r.eng = 0 → g < 0xFFFFFF00 → s.sameCtx g r.gen = true →
      c.wait = .object r.id true → c.heldTail = some e →
        (s.wakeHeld r = true → ∃ t : State, exec .wake s = .next t ∧ t.ctxs = s.ctxs ∧ t.net = s.net ∧ t.mem = s.mem ∧
          ∃ n ∈ t.agenda, n.ev = .wake ∧ n.arg.who = s.arg.who ∧ n.arg.what = s.arg.what ∧ n.at_ = s.cycle + 64) ∧
        (s.wakeHeld r = false → c.st = .parked → c.slot ≠ none →
          ∃ t : State, exec .wake s = .next t ∧ RegsAfter c (t.ctx g) (r.resultWrites c.dest 0 value ++ e.now) ∧
            (t.ctx g).resuming = true ∧ t.mem = s.mem) ∧
        (s.wakeHeld r = false → c.st = .cached → s.swappedOut g = false →
          ∃ t : State, exec .wake s = .next t ∧ RegsAfter c (t.ctx g) (r.resultWrites c.dest 0 value ++ e.now) ∧
            (t.ctx g).st = .ready ∧ (∃ x ∈ (t.core (s.at g)).ready, x.gid = g) ∧ t.mem = s.mem)) ∧
  (∀ (s : State) (r : ObjReq) (value : Word) (cause : Nat), s.msg s.arg.what = some (.wakeUp r value cause) →
      ∃ t : State, exec .parentWake s = .next t ∧ t.mem = s.mem ∧ t.tags = s.tags ∧ (∀ m ∈ t.net, m.id ≠ s.arg.what) ∧
        (t.slice s.arg.who).objQ = (s.slice s.arg.who).objQ ++ [{ r with op := 0, lane := r.op, nw := cause != 0 }] ∧
        ∃ d ∈ t.agenda, d.ev = .objectRequestArrival ∧ d.arg.who = s.arg.who ∧ d.arg.what = 0) ∧
  (∀ (s : State) (r : ObjReq), s.arg.what = 0 → (s.slice s.arg.who).objAt ≤ s.cycle → (s.slice s.arg.who).objQ = [r] →
    r.op = 0 → r.lane ≠ 0x28 → let a := r.operand
      (r.nw = true → s.waitsOf a = [] → ∃ t : State, exec .objectRequestArrival s = .next t ∧
        t.tag (s.placeOf a / 64) = 8 ∧ (t.slice s.arg.who).objAt = s.cycle + 2) ∧
      (r.nw = false → s.tag (s.placeOf a / 64) ≠ 2 → ∃ t : State, exec .objectRequestArrival s = .next t ∧
        t.mem = s.mem ∧ t.tags = s.tags ∧ (t.slice s.arg.who).objQ = []) ∧
      (∀ n : Nat, let o := s.object a
        let behind := (o.local_ - o.phase).toNat
        let k := Nat.min (o.leads.foldl Nat.min 3) (4 - behind)
        r.nw = false → s.tag (s.placeOf a / 64) = 2 → memWf s.mem → a.toNat % 64 = 0 → s.objectPoisoned a o = false → s.waitsOf a = [] →
        n = memberSectors o.members → s.Laid a n → o.parent ≠ 0 → 1 ≤ o.members → 1 ≤ behind → behind ≤ 3 →
          ∃ t : State, exec .objectRequestArrival s = .next t ∧ (t.object a).phase = o.phase + 1 ∧
            (t.object a).local_ = o.local_ + BitVec.ofNat 32 k ∧ (t.object a).leads = o.leads.map (fun l => l - k) ∧
            ∀ x, x / 64 ∉ s.laidSectors a n → memGet t.mem x = memGet s.mem x)) ∧
  (∀ (s : State) (w : WaitEntry), (s.slice s.arg.who).waits = [w] → w.spilled = true → w.req.vf = 0 →
    homeSlice w.req.addr = s.arg.who → s.spillPoisoned w = false →
      ∃ t : State, exec .spillRefill s = .next t ∧ (t.slice s.arg.who).waits = [{ w with spilled := false }] ∧ t.tags = s.tags)

/-- R109, R132 to R135, R350 to R352: combining and the object window. A CADD.cmb joins an entry for its counter that still waits,
or takes an entry of its own; the output sends the entry as one request with the sum; its reply splits into old values with the
parts before each. A window request is sent to its home, once the function's earlier BAR4 writes are done, or refused in its reply. The
model's choices: where the switch stands on the path, and that an entry is as old as the oldest packet in it entered the network
(notes/assumptions/36.md); and that the window looks again every 16 cycles for those writes (4.md). -/
def Obligations.CombiningAndWindow : Prop :=
  (∀ (s : State) (r : ObjReq) (e : SwitchEntry), let d := s.die s.arg.who
    s.msg s.arg.what = some (.request r) →
      (d.switchQ = [e] → e.sent = false → e.req.addr = r.addr → e.req.scope = r.scope →
        ∃ (t : State) (u : SwitchEntry), exec .switchCombine s = .next t ∧ t.mem = s.mem ∧ (t.die s.arg.who).switchQ = [u] ∧
          u.req = { e.req with operand := e.req.operand + r.operand, parts := e.req.parts ++ [(s.arg.what, r.operand)] } ∧
          u.sent = false ∧ u.left = Nat.min e.left (s.cycle - (r.leg - 12))) ∧
      (d.switchQ = [] →
        ∃ t : State, exec .switchCombine s = .next t ∧ t.mem = s.mem ∧
          (t.die s.arg.who).switchQ =
            [⟨{ r with parts := [(s.arg.what, r.operand)] }, false, s.cycle - (r.leg - 12), netPort r.origin.1⟩] ∧
          r.id ∈ (mapGet (t.die s.arg.who).outQ (homeSlice r.addr)).getD [])) ∧
  (∀ (s : State) (e : SwitchEntry), (s.die s.arg.who).switchQ = [e] → e.sent = false →
    mapGet (s.die s.arg.who).outQ s.arg.what = some [e.req.id] → (∀ bs b, s.arg.ext ≠ .bytes bs b) →
      ∃ t : State, exec .switchOutputGrant s = .next t ∧ t.mem = s.mem ∧ (t.die s.arg.who).switchQ = [{ e with sent := true }] ∧
        ∃ m ∈ t.net, m.body = .request e.req ∧ ∃ n ∈ t.agenda, n.ev = .objectRequestArrival ∧ n.arg.who = homeSlice e.req.addr ∧
          n.arg.what = m.id + 1) ∧
  (∀ (s : State) (r a b : ObjReq) (old x y : Word) (i j : Nat), s.msg s.arg.what = some (.objReply r 0 old 0) →
    r.parts = [(i, x), (j, y)] → s.msg i = some (.request a) → s.msg j = some (.request b) → i ≠ j → i ≠ s.arg.what →
    j ≠ s.arg.what → s.nextId ≠ j →
      ∃ t : State, exec .combinedReplySplit s = .next t ∧ t.mem = s.mem ∧ t.Answered a 0 old 0 ∧ t.Answered b 0 (old + x) 0 ∧
        (∀ e ∈ (t.die s.arg.who).switchQ, e.req.id ≠ r.id)) ∧
  (∀ (s : State) (w : WindowReq), s.arg.ext = .window w → s.arg.val = 64 → s.arg.what % 64 = 0 → w.h4.toNat % 16 = 0 →
    let v := s.arg.who
    let r := s.windowObj v w
    (windowIllegal w = false → bits w.h1 56 46 = Config.moduleNumber → w.h1.toNat % 64 = 0 → r.op < 0x40 → r.cmb = false →
      Rights.cover (s.hostRights v w.h1) 8 = true →
        (s.hostWrites v = false → ∃ t : State, exec .objectWindowRequest s = .next t ∧ t.mem = s.mem ∧
          ∃ m ∈ t.net, m.body = .request r ∧
            ∃ n ∈ t.agenda, n.ev = .objectRequestArrival ∧ n.arg.who = homeSlice w.h1 ∧ n.arg.what = m.id + 1) ∧
        (s.hostWrites v = true → ∃ t : State, exec .objectWindowRequest s = .next t ∧ t.mem = s.mem ∧ t.net = s.net ∧
          ∃ n ∈ t.agenda, n.ev = .objectWindowRequest ∧ n.arg = s.arg ∧ n.at_ = s.cycle + 16)) ∧
    (windowIllegal w = true → w.h4 ≠ 0 → bits w.h5 47 32 = 0 → w.h4.toNat + 16 ≤ 2 ^ 64 → memWf s.hostMem →
        ∃ t : State, exec .objectWindowRequest s = .next t ∧ t.mem = s.mem ∧ t.net = s.net ∧
          wordAt t.hostMem w.h4.toNat = word (3 + 2 ^ 8 * Cause.illegalOp + 2 ^ 32 * bits w.h5 31 0) ∧
          wordAt t.hostMem (w.h4.toNat + 8) = 0))

/-- R176, R339 to R341, R343 to R345, R376: messages, arrival counts, deadlines and the watchdog. A USER message is accepted into
the inbox with its answer on the way, refused, discarded for a Free context, or told off by .nw when there is no room; the answer
completes the SEND; a full match entry fires; a passed deadline ends the WAITT; each 16 cycles of a counted wait add one to
COUNT, and at LIMIT the wait ends with WATCHDOG. -/
def Obligations.MessagesDeadlinesWatchdog : Prop :=
  (∀ (s : State) (dest sender : Nat) (m : Message) (nw : Bool), let core := s.at dest
    s.msg s.arg.what = some (.user dest m sender nw) → (s.cluster (clusterOf core)).leasedCore ≠ some core → m.dest = dest →
      (∀ x, s.refuseUser dest sender = some x →
        ∃ t : State, exec .messageArrival s = .next t ∧ t.cores = s.cores ∧ t.ctxs = s.ctxs ∧
          ∃ n ∈ t.agenda, n.ev = .sendAnswer ∧ n.arg = ⟨sender, s.arg.what, 2 ^ 8 * x, .none⟩) ∧
      (s.refuseUser dest sender = none → (s.ctx dest).st = .free →
        ∃ t : State, exec .messageArrival s = .next t ∧ (t.core core).discarded = (s.core core).discarded + 1 ∧
          (t.core core).inbox = (s.core core).inbox ∧
          ∃ n ∈ t.agenda, n.ev = .sendAnswer ∧ n.arg = ⟨sender, s.arg.what, 3, .none⟩) ∧
      (s.refuseUser dest sender = none → (s.ctx dest).st ≠ .free → (s.core core).inbox.length < 64 →
        (∀ x ∈ (s.core core).saggarMsgs, x.dest ≠ dest) → s.swappedOut dest = false →
        ∃ t : State, exec .messageArrival s = .next t ∧ (t.core core).inbox = (s.core core).inbox ++ [{ m with seq := s.nextId }] ∧
          t.mem = s.mem ∧ ∃ n ∈ t.agenda, n.ev = .sendAnswer ∧ n.arg = ⟨sender, s.arg.what, 0, .none⟩) ∧
      (s.refuseUser dest sender = none → (s.ctx dest).st ≠ .free → 64 ≤ (s.core core).inbox.length → s.saggarRoomFor dest 32 = false →
        (nw = true → ∃ t : State, exec .messageArrival s = .next t ∧ t.cores = s.cores ∧
          ∃ n ∈ t.agenda, n.ev = .sendAnswer ∧ n.arg = ⟨sender, s.arg.what, 1, .none⟩) ∧
        (nw = false → ∃ t : State, exec .messageArrival s = .next t ∧ t.cores = s.cores ∧ t.net = s.net))) ∧
  (∀ (s : State) (dest src : Nat) (m : Message), let core := s.at dest
    s.msg s.arg.what = some (.posted dest m src) → (s.cluster (clusterOf core)).leasedCore ≠ some core → m.dest = dest →
    dest / 2 ^ 22 = Config.moduleNumber → (s.ctx dest).st ≠ .free → (s.core core).inbox.length < 64 →
    (∀ x ∈ (s.core core).saggarMsgs, x.dest ≠ dest) → s.swappedOut dest = false →
      ∃ t : State, exec .messageRetry s = .next t ∧ (t.core core).inbox = (s.core core).inbox ++ [{ m with seq := s.nextId }] ∧
        (∀ x ∈ t.net, x.id ≠ s.arg.what)) ∧
  (∀ (s : State) (dest : Nat) (w0 w2 w3 : Word) (nw : Bool) (e : Effect), let g := s.arg.who
    let c := s.ctx g
    c.held = some (.send dest w0 w2 w3 nw) → c.wait = .answer → c.answer = some s.arg.what → c.heldTail = some e →
      (s.arg.val < 2 ^ 8 → c.st = .parked → c.slot ≠ none →
        ∃ t : State, exec .sendAnswer s = .next t ∧
          RegsAfter c (t.ctx g) ((if nw then [setS c.dest (word s.arg.val)] else []) ++ e.now) ∧ (t.ctx g).resuming = true ∧
          t.mem = s.mem) ∧
      (2 ^ 8 ≤ s.arg.val → c.EntersNow (s.arg.val / 2 ^ 8) →
        ∃ t : State, exec .sendAnswer s = .next t ∧
          Entered c (t.ctx g) (s.arg.val / 2 ^ 8) (word (dest + 2 ^ 32 * (w0.toNat / 2 ^ 32))) c.heldPc false s.cycle)) ∧
  (∀ (s : State) (i : Nat) (m : MatchEntry), let k := s.core s.arg.who
    k.arrivals = [(i, m)] → m.tag.toNat = s.arg.what →
      (m.count + s.arg.val < m.length →
        ∃ t : State, exec .arrivalCount s = .next t ∧
          (t.core s.arg.who).arrivals = [(i, { m with count := m.count + s.arg.val })] ∧ t.ctxs = s.ctxs) ∧
      (m.length ≤ m.count + s.arg.val → m.wake = true → (s.ctx m.named).st = .running → (s.ctx m.named).wait = .none →
        ∃ t : State, exec .arrivalCount s = .next t ∧ (t.core s.arg.who).arrivals = [] ∧ (t.ctx m.named).wake = true) ∧
      (m.length ≤ m.count + s.arg.val → m.wake = false → (s.ctx m.named).st ≠ .free →
        ∃ t : State, exec .arrivalCount s = .next t ∧ (t.core s.arg.who).arrivals = [] ∧
          ∃ x ∈ t.net, x.body = .posted m.named ⟨m.named, 0, word (0x20 + 2 ^ 32 * m.tag.toNat), word m.owner,
            word (m.count + s.arg.val), word i⟩ 4)) ∧
  (∀ (s : State) (m : Message), s.arg.what = 0 → (s.core s.arg.who).inbox.length < 64 → (s.core s.arg.who).saggarMsgs = [m] →
    s.swappedOut m.dest = false →
      ∃ t : State, exec .inboxRefill s = .next t ∧ (t.core s.arg.who).inbox = (s.core s.arg.who).inbox ++ [m] ∧
        (t.core s.arg.who).saggarMsgs = []) ∧
  (∀ (s : State) (d : Word), let g := s.arg.who
    let c := s.ctx g
    c.wait = .waitt d → c.st = .parked → c.slot ≠ none → let left := s.time (dieOfCore (s.at g)) - d
      (0 ≤ left.toInt → ∃ t : State, exec .waittDeadline s = .next t ∧ (t.ctx g).resuming = true ∧ (t.ctx g).s = c.s) ∧
      (left.toInt < 0 → ∃ t : State, exec .waittDeadline s = .next t ∧ t.ctxs = s.ctxs ∧ t.mem = s.mem)) ∧
  (∀ (s : State), let g := s.arg.who
    let c := s.ctx g
    s.arg.val = 0 → c.parkedAt = s.arg.what → c.resuming = false → c.st = .parked → s.countFrozen g = false →
      (c.wait.counted = true → (c.wcount + 1 ≠ c.wlimit ∨ c.wlimit = 0) →
        ∃ t : State, exec .watchdogExpiry s = .next t ∧ (t.ctx g).wcount = c.wcount + 1 ∧ (t.ctx g).st = .parked ∧
          (t.ctx g).wait = c.wait ∧ ∃ n ∈ t.agenda, n.ev = .watchdogExpiry ∧ n.arg.who = g ∧ n.at_ = s.cycle + 16) ∧
      (c.wait = .recv → c.wcount + 1 = c.wlimit → c.wlimit ≠ 0 →
        ∃ t : State, exec .watchdogExpiry s = .next t ∧ Cause.watchdog ∈ (t.ctx g).async ∧ (t.ctx g).st = .running ∧
          (t.ctx g).s = c.s ∧ t.mem = s.mem))

/-- R148, R158 to R164: slots and the ready queue. An empty slot takes the first Ready context whose image the core holds, after 48
cycles and with the data cache empty, one slot a cycle; it is Running, resuming at its first turn if its event came or it has a marker to
raise, or Parked if it still waits; an image is fetched; a Parked context that qualifies is displaced, or a Running one past its quantum
is to leave, and does so at its turn as Ready. One that waited moves up a level: at exactly 16 quanta, where R160 says more than 16
and R170's bound needs that much, and as rank 0 of its cycle; both are the model's reading (notes/assumptions/73.md). -/
def Obligations.SlotsAreFilled : Prop :=
  ∀ (s : State), let core := s.arg.who
    let k := s.core core
    let halted := (s.cluster (clusterOf core)).halted
    (s.arg.what = 0 → k.present = true → k.leaseHold = false → halted = false → s.cycle < k.fillAt → exec .slotFill s = .next (s.kick core)) ∧
    (∀ e slot rest, let c := s.ctx e.gid
      s.arg.what = 0 → k.present = true → k.leaseHold = false → halted = false → k.fillAt ≤ s.cycle →
      (∀ i, (k.slot i).reserved = none) → k.ready = [e] →
      k.freeSlots = slot :: rest → k.tcc.contains e.gid = true → c.twin = none → c.kill = none → s.at e.gid = core →
        ∃ t : State, exec .slotFill s = .next t ∧ (t.ctx e.gid).slot = some slot ∧
          (t.ctx e.gid).st = (if c.wait = .none ∨ c.arrived = true then .running else .parked) ∧
          (c.wait = .none → c.marker = false → (t.ctx e.gid).resuming = c.resuming) ∧
          ((c.wait = .none ∧ c.marker = true) ∨ (c.wait ≠ .none ∧ c.arrived = true) → (t.ctx e.gid).resuming = true ∧
            ∃ d ∈ t.agenda, d.ev = .parkResume ∧ d.arg.who = e.gid) ∧
          (t.ctx e.gid).readyAt = Nat.max (s.cycle + 48) (k.slot slot).freeAt ∧ (t.ctx e.gid).s = c.s ∧
          ((t.core core).slot slot).occ = some e.gid ∧ (t.core core).ready = [] ∧ (t.core core).l1d = [] ∧ t.mem = s.mem) ∧
    (let g := s.arg.what
     (s.ctx g).st = .ready → s.at g = core → k.tcc.contains g = false → k.tcc.length < 48 →
     s.saggarPoisoned (dieOfCore core) (s.saggarByte g 0) 2048 = false →
        ∃ t : State, exec .imageFetch s = .next t ∧ (t.core core).tcc = k.tcc ++ [g] ∧ t.ctxs = s.ctxs ∧ t.mem = s.mem) ∧
    (∀ v slot, halted = false → s.firstReady core ≠ none → k.freeSlots = [] → k.tcc.length < 48 →
      bestOf longerParked ((s.ctxsOf core).filter fun x => x.2.displaceable) = some v → (s.ctx v.1).slot = some slot → s.at v.1 = core →
        ∃ t : State, exec .displacement s = .next t ∧ (t.ctx v.1).st = .cached ∧ (t.ctx v.1).slot = none ∧
          (t.ctx v.1).wait = (s.ctx v.1).wait ∧ (t.ctx v.1).s = (s.ctx v.1).s ∧ ((t.core core).slot slot).occ = none ∧
          ((t.core core).slot slot).freeAt = s.cycle + 48 ∧ v.1 ∈ (t.core core).tcc ∧ t.mem = s.mem) ∧
    (∀ v, halted = false → s.firstReady core ≠ none → k.freeSlots = [] →
      let past := fun x : Nat × Ctx => s.preemptible core x.2 && decide (x.2.quantumEnd ≤ s.cycle)
      ((s.ctxsOf core).any fun x => x.2.leaves && past x) = false →
      bestOf firstVictim ((s.ctxsOf core).filter fun x => past x && decide (x.2.st = .running)) = some v →
        ∃ t : State, exec .quantumPreempt s = .next t ∧ (t.ctx v.1).leaves = true ∧ (t.ctx v.1).st = (s.ctx v.1).st ∧
          (∀ h, h ≠ v.1 → t.ctx h = (s.keepAll core).ctx h) ∧ t.cores = s.cores ∧ t.mem = s.mem) ∧
    (∀ cycle g slot, s.coming = .turn cycle g → let u : State := { s with cycle := cycle, cur := g }
      let c := u.ctx g
      c.async = [] → u.stopped (u.at g) = none → u.leavesNow g = true → c.slot = some slot →
        ∃ t : State, step s = .next t ∧ (t.ctx g).st = .ready ∧ (t.ctx g).slot = none ∧ (t.ctx g).s = c.s ∧
          ((t.core (s.at g)).slot slot).occ = none ∧ ((t.core (s.at g)).slot slot).freeAt = cycle + 48 ∧
          (∃ e ∈ (t.core (s.at g)).ready, e.gid = g ∧ e.level = c.prio) ∧ t.mem = s.mem) ∧
    (∀ e, k.ready = [e] → e.gid = s.arg.what →
      (e.since + 256 * (s.ctx e.gid).tquant.toNat ≤ s.cycle → e.level ≠ 3 →
        ∃ t : State, exec .readyPromotion s = .next t ∧
          (t.core core).ready = [{ e with level := e.level + 1, since := s.cycle, rank := 0 }] ∧ t.ctxs = s.ctxs) ∧
      (s.cycle < e.since + 256 * (s.ctx e.gid).tquant.toNat ∨ e.level = 3 → exec .readyPromotion s = .next s))

/-- R149, R153, R156, R157, R166 to R169, R172, R174, R379, R381, R382, R437: contexts are created, stolen for and ended. A creation takes
the lowest free number and slot, or is busy, one a cycle; its answer completes the SPAWN. A thief's probe takes the top record of a deque
when the thief lies in the domain of the core that forked it, which is empty for S = 0, or counts as unsuccessful, as at an absent
core; it is given the deque's port in the order of arrival. A drained QUIT frees the context with its join add; a drained kill frees it
with its record. The model's choices: that a probe reaches the deque at the end of its time and the thief looks on a cycle later
(notes/assumptions/62.md), and that a creation which may not be taken looks again in the next cycle (4.md). -/
def Obligations.ContextsBeginAndEnd : Prop :=
  (∀ (s : State) (trip req spawner n : Nat) (c : Ctx), let core := s.arg.who
    s.msg s.arg.what = some (.create trip req c spawner) → (s.cluster (clusterOf core)).halted = false → s.swappedOut spawner = false →
    c.twinned = false → s.freeNum core = some n →
      (s.accepts core = false → exec .spawnCreation s = .next (s.post 1 .spawnCreation core s.arg.what)) ∧
      (∀ slot rest, s.accepts core = true → (s.core core).freeSlots = slot :: rest → c.wait = .none → c.marker = false → core < Config.cores →
        ∃ t : State, exec .spawnCreation s = .next t ∧ (t.ctx (gidOf core n)).st = .running ∧
          (t.ctx (gidOf core n)).slot = some slot ∧ (t.ctx (gidOf core n)).s = c.s ∧ (t.ctx (gidOf core n)).pc = c.pc ∧
          (t.ctx (gidOf core n)).tvecS = (s.core core).svec ∧ (t.ctx (gidOf core n)).gen = (s.core core).genTag n ∧
          ((t.core core).slot slot).occ = some (gidOf core n) ∧
          ∃ d ∈ t.agenda, d.ev = .spawnAnswer ∧ d.arg = ⟨spawner, s.arg.what, gidOf core n + 1, .none⟩) ∧
      (s.accepts core = true → (s.core core).freeSlots = [] → s.queueRoom core = false →
        ∃ t : State, exec .spawnCreation s = .next t ∧ t.ctxs = s.ctxs ∧ t.cores = s.cores ∧
          ∃ d ∈ t.agenda, d.ev = .spawnAnswer ∧ d.arg = ⟨spawner, s.arg.what, 0, .none⟩)) ∧
  (∀ (s : State) (e : Effect), let g := s.arg.who
    let c := s.ctx g
    c.wait = .answer → c.answer = some s.arg.what → c.heldTail = some e → c.st = .parked → c.slot ≠ none →
      ∃ t : State, exec .spawnAnswer s = .next t ∧ (t.ctx g).resuming = true ∧ t.mem = s.mem ∧ RegsAfter c (t.ctx g)
        (setS c.dest (if s.arg.val = 0 then BitVec.allOnes 64 else word (s.arg.val - 1)) :: e.now)) ∧
  (∀ (s : State), let core := s.arg.who
    let th := (s.core core).thief
    let n := (s.victims core).length
    (∀ v, s.mayStealNow core = true → th.probing = none → th.until_ = none → (s.victims core)[th.next % n]? = some v → 0 < n →
      ∃ t : State, exec .stealProbe s = .next t ∧ (t.core core).thief = { th with probing := some v } ∧
        ∃ d ∈ t.agenda, d.ev = .stealProbeResult ∧ d.arg = ⟨core, v, 0, .none⟩ ∧
          d.at_ = s.cycle + (if clusterOf core = clusterOf v then 40 else if dieOfCore core = dieOfCore v then 120 else 300)) ∧
    (let v := s.arg.what
     th.probing = some v → v ≠ core → (s.cluster (clusterOf v)).leasedCore ≠ some v → (s.cluster (clusterOf v)).halted = false →
      (s.arg.val = 0 → s.cycle < (s.core v).dequeAt →
        ∃ t : State, exec .stealProbeResult s = .next t ∧ (t.core v).dequeAt = (s.core v).dequeAt + 1 ∧ (t.core v).deque = (s.core v).deque ∧
          (t.core core).thief = th ∧
          ∃ d ∈ t.agenda, d.ev = .stealProbeResult ∧ d.arg = ⟨core, v, 1, .none⟩ ∧ d.at_ = (s.core v).dequeAt) ∧
      (s.arg.val = 1 ∨ (s.arg.val = 0 ∧ (s.core v).dequeAt ≤ s.cycle) →
      let none_ := (s.core v).present = false ∨ (s.core v).deque = [] ∨
        ∃ r, (s.core v).deque.getLast? = some r ∧ (r.size = 0 ∨ core ∉ s.stealDomain r.forker r.size.toNat)
      (∀ r, (s.core v).present = true → (s.core v).deque.getLast? = some r → r.size ≠ 0 → core ∈ s.stealDomain r.forker r.size.toNat →
        r.twin = false → s.mayStealNow core = true →
        ∃ t : State, exec .stealProbeResult s = .next t ∧ (t.core v).deque = (s.core v).deque.dropLast ∧
          (t.core core).deque = r :: (s.core core).deque ∧ (t.core core).thief.probing = none) ∧
      (none_ → th.tried + 1 < n →
        ∃ t : State, exec .stealProbeResult s = .next t ∧ (t.core core).thief.tried = th.tried + 1 ∧
          (t.core core).thief.probing = none ∧ (t.core core).deque = (s.core core).deque ∧ (t.core v).deque = (s.core v).deque) ∧
      (none_ → n ≤ th.tried + 1 →
        ∃ t : State, exec .stealProbeResult s = .next t ∧ (t.core core).thief.until_ = some (s.cycle + th.wait) ∧
          (t.core core).thief.wait = Nat.min 65536 (2 * th.wait)))) ∧
    (∀ e, th.until_ = some e →
      ∃ t : State, exec .stealBackoffEnd s = .next t ∧ (t.core core).thief.until_ = none ∧
        (t.core core).thief.wait = (if s.cycle < e then 256 else th.wait) ∧
        ∃ d ∈ t.agenda, d.ev = .stealProbe ∧ d.arg.who = core)) ∧
  (∀ (s : State), let g := s.arg.who
    let c := s.ctx g
    let core := s.at g
    rising 0 s.ctxs = true → (∀ x ∈ s.ctxs, ∀ gs, x.2.wait ≠ .kills gs) →
      (∀ slot, c.wait = .drain → c.kill = none → c.st = .parked → c.phase = 1 → c.probes = [] → s.engineBusy g c.gen = false → c.rcause = 0 →
        c.twin = none → c.slot = some slot →
          ∃ t : State, exec .quitComplete s = .next t ∧ (t.ctx g).st = .free ∧ ((t.core core).slot slot).occ = none ∧
            ((t.core core).slot slot).freeAt = s.cycle + 1 ∧ t.mem = s.mem ∧
            (c.join ≠ 0 → bits (c.join.setWidth 64) 55 46 = Config.moduleNumber →
              ∃ m ∈ t.net, ∃ r, m.body = .request r ∧ r.op = 0x2B ∧ r.addr = c.join.setWidth 64 ∧ r.operand = 1)) ∧
      (c.wait = .drain → c.kill = none → c.st = .parked → c.phase = 0 → c.pend ≠ [] →
        ∃ t : State, exec .quitComplete s = .next t ∧ t.ctxs = s.ctxs ∧ t.mem = s.mem ∧
          ∃ d ∈ t.agenda, d.ev = .quitComplete ∧ d.arg.who = g ∧ d.at_ ≤ s.cycle + 16) ∧
      (∀ k, c.kill = some k → c.st ≠ .swapped → c.phase = 3 → c.probes = [] → s.requestOut g (BitVec.ofNat 12 k.oldGen) = false →
        (s.cluster (clusterOf core)).leasedCore ≠ some core → (∀ x ∈ s.slices, x.2.waits = []) →
        let v := (s.partOfCtx g).getD 0
          ∃ (t : State) (rec : List Word), exec .killComplete s = .next t ∧ (t.ctx g).st = .free ∧
            (t.part v).killLog.seq = (s.part v).killLog.seq + 1 ∧ (t.part v).killLog.records.head? = some rec ∧
            rec[0]? = some (word (g + 2 ^ 32 * k.oldGen + 2 ^ 44 * k.cause + 2 ^ 52 * c.twin.isSome.toNat)) ∧
            rec[2]? = some (word (bits k.pc 56 0)) ∧ rec[3]? = some k.tval ∧ rec[5]? = some (word k.killer) ∧
            rec[7]? = some (word ((s.part v).killLog.seq % 2 ^ 32))))

/-- R73, R270, R271, R277, R279 to R281, R290: the copy engine. A free lane takes the command 8 cycles after it was queued; a unit whose
pages are at hand writes the bytes it has read or made at their places and nothing else, or, failing, writes nothing, sets the sticky
flag and posts CPERR; one that must wait for a walk comes again; a command whose writes are acknowledged asks for its action, posts
CPDONE, or is done; so does one whose action was answered. The model's choices: that a unit looks again every 16 cycles and a lane in
the meantime reads ahead (notes/assumptions/60.md), and the tag of an OBJERR (28.md). -/
def Obligations.CopyEngineWorks : Prop :=
  (∀ (s : State) (c : CpCmd), s.arg.what = 0 → (s.cluster s.arg.who).lanes = [] → (s.cluster s.arg.who).cpQueue = [c] →
    (s.cluster s.arg.who).cpHalted = false → c.failed = false → c.queued + 8 ≤ s.cycle →
      ∃ t : State, exec .cpLaneStart s = .next t ∧ (t.cluster s.arg.who).lane 0 = ⟨some c, 0⟩ ∧ t.mem = s.mem ∧
        ∃ n ∈ t.agenda, n.ev = .cpUnit ∧ n.arg.who = 4 * s.arg.who) ∧
  (∀ (s : State) (c : CpCmd), let cl := s.arg.who / 4
    let l := s.arg.who % 4
    (s.cluster cl).lane l = ⟨some c, 0⟩ → (s.cluster cl).cpHalted = false → s.sameCtx c.gid c.gen = true → c.indexPieces = [] →
      let asks := s.engAsks c.user false c.readPieces ++ s.engAsks c.user true c.writePieces
      ((s.lookUp asks).1 = false →
        ∃ t : State, exec .cpUnit s = .next t ∧ t.mem = s.mem ∧ t.ctxs = s.ctxs ∧ (t.cluster cl).lane l = ⟨some c, 0⟩ ∧
          ∃ n ∈ t.agenda, n.ev = .cpUnit ∧ n.arg = ⟨4 * cl + l, 0, 0, .none⟩ ∧ n.at_ = s.cycle + 16) ∧
      (∀ data bad src ps, (s.lookUp asks).1 = true → s.cpUnitSrc c = .ok src → s.cpUnitData c = .ok (data, bad) →
        s.cpUnitDst c = .ok ps → s.rowsHeld (slabRows src ++ slabRows ps) = false →
        (∀ p ∈ ps, s.fenced (placeDie p) c.domain c.domGen = false) →
        ∃ t : State, exec .cpUnit s = .next t ∧ t.mem = (ps.zip data).foldl (fun m x => memSet m x.1 x.2) s.mem ∧ t.ctxs = s.ctxs ∧
          t.tags = s.tags ∧
          (c.off + c.unitLen < c.rowBytes ∨ c.row + 1 < c.rows → ∃ d, (t.cluster cl).lane l = ⟨some d, 0⟩ ∧ d.unit = c.unit + 1 ∧
            d.words = c.words) ∧
          (c.rowBytes ≤ c.off + c.unitLen → c.rows ≤ c.row + 1 → ((t.cluster cl).lane l).waiting = 1)) ∧
      (∀ cause a, (s.lookUp asks).1 = true → s.cpUnitData c = .error (cause, a) → (s.ctx c.gid).twin = none →
        (s.ctx c.gid).rcause = 0 →
        (s.cluster cl).cpQueue = [c] →
        ∃ t : State, exec .cpUnit s = .next t ∧ t.mem = s.mem ∧ (t.ctx c.gid).eerr = true ∧
          (t.ctx c.gid).rcause.toNat = Cause.engineError ∧ (t.ctx c.gid).rtval = word (c.seq.toNat + 2 ^ 32 * cause + 2 ^ 40) ∧
          ∃ m ∈ t.net, m.body = .posted c.gid ⟨c.gid, l, word (4 + 2 ^ 32 * c.tag), word c.gid,
            word (c.seq.toNat + 2 ^ 32 * cause + 2 ^ 40 * (c.unit % 2 ^ 24)), word (bits a 56 0)⟩ 1)) ∧
  (∀ (s : State) (c : CpCmd), let cl := s.arg.who / 4
    let l := s.arg.who % 4
    (s.cluster cl).lane l = ⟨some c, 1⟩ → s.sameCtx c.gid c.gen = true → (∀ x ∈ s.ctxs, x.2.wait ≠ .cpq) →
      (c.act = 0 → c.notify = false →
        ∃ t : State, exec .cpWritesAcked s = .next t ∧ ((t.cluster cl).lane l).cmd = none ∧ (t.ctx c.gid).lastCp = some c.seq ∧
          (∀ d ∈ (t.cluster cl).cpQueue, d.seq ≠ c.seq) ∧ t.mem = s.mem) ∧
      (c.act = 0 → c.notify = true →
        ∃ t : State, exec .cpWritesAcked s = .next t ∧ t.mem = s.mem ∧ ∃ m ∈ t.net, m.body =
          .posted c.gid ⟨c.gid, l, word (3 + 2 ^ 32 * c.tag), word c.gid, c.seq.setWidth 64, word c.badTern⟩ 1) ∧
      (c.act ≠ 0 → s.engObjCheck c.user (cw c.words 5) = none → bits (cw c.words 5) 55 46 = Config.moduleNumber →
        ∃ t : State, exec .cpWritesAcked s = .next t ∧ (t.cluster cl).lane l = ⟨some c, 2⟩ ∧ t.mem = s.mem ∧
          ∃ m ∈ t.net, ∃ r, m.body = .request r ∧ r.op = [0, 0x2B, 0x2E, 0x33].getD c.act 0 ∧ r.addr = cw c.words 5 ∧
            r.operand = cw c.words 6)) ∧
  (∀ (s : State) (c : CpCmd) (r : ObjReq) (code : Nat) (v : Word) (cause : Nat), let cl := clusterOf (coreOf r.ctxid)
    s.msg s.arg.what = some (.objReply r code v cause) → s.swappedOut r.ctxid = false → (s.cluster cl).lane r.lane = ⟨some c, 2⟩ →
    c.gid = r.ctxid → c.gen = r.gen → s.sameCtx c.gid c.gen = true → (∀ x ∈ s.ctxs, x.2.wait ≠ .cpq) →
      (code = 0 → c.notify = false →
        ∃ t : State, exec .cpActionReply s = .next t ∧ ((t.cluster cl).lane r.lane).cmd = none ∧ (t.ctx c.gid).lastCp = some c.seq) ∧
      (code = 3 → cause ≠ 0 →
        ∃ t : State, exec .cpActionReply s = .next t ∧ (t.ctx c.gid).eerr = true ∧ ∃ m ∈ t.net, m.body =
          .posted c.gid ⟨c.gid, r.lane, word (0x40 + 2 ^ 32 * c.tag), word c.gid, cw c.words 5, word cause⟩ 1))

/-- R308, R317 to R319, R322, R323, R325 to R329, R332, R423: the matrix unit. A command starts; a group that has taken its last row pair
and whose frames have passed, with its pages at hand and its banks in no hand-over, replaces its cells, a row is zeroed or stored, or the
command faults before it; it completes with its counter add, its message, or at once; a GMMA is admitted with a part for each member and
completes with the last, each member's part slot being freed with its part; a pair's equal digests let its rows be written. The model's
choices: that a group takes effect at its end and looks again every 16 cycles for a walk (notes/assumptions/60.md), how it waits at the
banks that it shares (35.md, 75.md), and the end of a command that posts nothing (38.md). -/
def Obligations.MatrixUnitWorks : Prop :=
  (∀ (s : State) (c : MxCmd) (rest : List MxCmd), let mx := (s.core s.arg.who).mx
    s.arg.what = 0 → mx.halted = false → mx.part = none → mx.run = none → mx.queue = c :: rest → c.failed = false → c.kind ≠ 5 →
    c.kind ≠ 6 →
      ∃ (t : State) (load : Nat), exec .mxCommandStart s = .next t ∧
        (t.core s.arg.who).mx.run = some ⟨c, 0, 0, 0, false, 0, 0, s.cycle, load⟩ ∧
        (t.core s.arg.who).mx.queue = rest ∧ t.mem = s.mem ∧
        ∃ n ∈ t.agenda, n.ev = .mxGroup ∧ n.arg.who = s.arg.who ∧ s.cycle + load ≤ n.at_) ∧
  (∀ (s : State) (r : MxRun), let core := s.arg.who
    let mx := (s.core core).mx
    let c := r.cmd
    s.arg.what = 0 → mx.run = some r → mx.halted = false → r.waiting = 0 → r.part = false → s.sameCtx c.gid c.gen = true →
      let near := (s.lookUp (s.engAsks c.user false r.readPieces ++ s.engAsks c.user true r.writePieces)).1 = true
      let ready := (c.multiplies = true → s.mxFetching core = false ∧ r.fetchEnd mx.lastPair ≤ s.cycle) ∧ s.unitHeld r = false
      (c.multiplies = true → s.mxFetching core = true → exec .mxGroup s = .next (s.post 1 .mxGroup core 0)) ∧
      (c.multiplies = true → s.mxFetching core = false → s.cycle < r.fetchEnd mx.lastPair →
        exec .mxGroup s = .next (s.post (r.fetchEnd mx.lastPair - s.cycle) .mxGroup core 0)) ∧
      ((c.multiplies = true → s.mxFetching core = false ∧ r.fetchEnd mx.lastPair ≤ s.cycle) → s.unitHeld r = true →
        exec .mxGroup s = .next (s.post 64 .mxGroup core 0)) ∧
      (¬near → ready →
        ∃ t : State, exec .mxGroup s = .next t ∧ t.mem = s.mem ∧ t.ctxs = s.ctxs ∧ (t.core core).mx = mx ∧
          ∃ n ∈ t.agenda, n.ev = .mxGroup ∧ n.arg = ⟨core, 0, 0, .none⟩ ∧ n.at_ = s.cycle + 16) ∧
      (∀ cs, c.multiplies = true → ready → near → s.groupCells core c r.region r.next = .ok cs →
        ∃ t : State, exec .mxGroup s = .next t ∧ (t.core core).mx.acc = putCells mx.acc cs ∧ t.mem = s.mem ∧
          (r.next + 1 < c.groups → (t.core core).mx.run = some { r with next := r.next + 1, asked := s.cycle, load := 0 }) ∧
          (c.groups ≤ r.next + 1 → ((t.core core).mx.run.map (·.waiting)) = some 1)) ∧
      (c.kind = 3 → c.n ≤ 64 → ready →
        ∃ t : State, exec .mxGroup s = .next t ∧ t.mem = s.mem ∧
          (rising 0 mx.acc = true → ∀ j, j < c.n → (t.core core).mx.cell (cellKey r.region.acc r.next j) = 0)) ∧
      (∀ ps, c.kind = 5 → ready → near → s.poison = [] → s.engRange c.user true (c.pieces 1 r.next 0 c.rowBytes) = .ok ps →
        (∀ p ∈ ps, s.fenced (placeDie p) c.domain c.domGen = false) →
        ∃ t : State, exec .mxGroup s = .next t ∧ (t.core core).mx.acc = mx.acc ∧
          t.mem = (ps.zip (s.storeRow core c r.region.acc r.next)).foldl (fun m x => memSet m x.1 x.2) s.mem) ∧
      (∀ cause a, c.multiplies = true → ready → near →
        s.groupCells core c r.region r.next = .error (cause, some a) → (s.ctx c.gid).twin = none →
        (s.ctx c.gid).rcause = 0 → mx.queue = [] →
        ∃ t : State, exec .mxGroup s = .next t ∧ t.mem = s.mem ∧ (t.core core).mx.acc = mx.acc ∧ (t.ctx c.gid).eerr = true ∧
          (t.ctx c.gid).rcause.toNat = Cause.engineError ∧ (t.ctx c.gid).rtval = word (c.seq.toNat + 2 ^ 32 * cause) ∧
          ∃ m ∈ t.net, m.body = .posted c.gid ⟨c.gid, core, word (2 + 2 ^ 32 * c.tag), word c.gid,
            word (c.seq.toNat + 2 ^ 32 * cause + 2 ^ 40 * (r.next % 2 ^ 12)), word (bits a 56 0)⟩ 0)) ∧
  (∀ (s : State) (r : MxRun), let core := s.arg.who
    let c := r.cmd
    (s.core core).mx.run = some r → r.waiting = 1 → s.sameCtx c.gid c.gen = true → s.trails c.gid = false → (∀ x ∈ s.ctxs, x.2.wait ≠ .mxq) →
      (bits (cw c.words 0) 26 25 = 0 →
        ∃ t : State, exec .mxWritesAcked s = .next t ∧ (t.core core).mx.run = none ∧ (t.ctx c.gid).lastMx = some c.seq ∧ t.mem = s.mem) ∧
      (bits (cw c.words 0) 26 25 = 1 →
        ∃ t : State, exec .mxWritesAcked s = .next t ∧ t.mem = s.mem ∧ ∃ m ∈ t.net, m.body =
          .posted c.gid ⟨c.gid, core, word (1 + 2 ^ 32 * c.tag), word c.gid, c.seq.setWidth 64, if c.kind = 5 then r.digest else 0⟩ 0) ∧
      (bits (cw c.words 0) 26 26 = 1 → s.engObjCheck c.user (word (bits (cw c.words 7) 56 0)) = none →
        bits (cw c.words 7) 55 46 = Config.moduleNumber →
        ∃ t : State, exec .mxWritesAcked s = .next t ∧ (t.core core).mx.run = some { r with waiting := 2 } ∧ t.mem = s.mem ∧
          ∃ m ∈ t.net, ∃ q, m.body = .request q ∧ q.op = 0x2B ∧ q.addr = word (bits (cw c.words 7) 56 0) ∧ q.operand = 1)) ∧
  (∀ (s : State) (r : MxRun) (q : ObjReq) (v : Word), let c := r.cmd
    s.msg s.arg.what = some (.objReply q 0 v 0) → s.swappedOut q.ctxid = false → (s.core q.lane).mx.run = some r → r.waiting = 2 →
    c.gid = q.ctxid → c.gen = q.gen → s.sameCtx c.gid c.gen = true → bits (cw c.words 0) 25 25 = 0 → (∀ x ∈ s.ctxs, x.2.wait ≠ .mxq) →
      ∃ t : State, exec .mxCtrReply s = .next t ∧ (t.core q.lane).mx.run = none ∧ (t.ctx c.gid).lastMx = some c.seq) ∧
  (∀ (s : State) (j : GmmaJob) (rest : List GmmaJob) (r : MxRun), let kiln := s.arg.who
    (s.cluster kiln).gmmaRun = none → (s.cluster kiln).halted = false → (s.cluster kiln).gmmaQ = j :: rest →
    (s.core j.core).mx.run = some r → (∀ m, m < j.cmd.memberCount → (s.core (memberCore kiln m)).present = true) →
      ∃ t : State, exec .gmmaAdmit s = .next t ∧ (t.cluster kiln).gmmaQ = rest ∧
        (t.cluster kiln).gmmaRun = some { j with left := j.cmd.memberCount } ∧ t.mem = s.mem ∧
        (∀ m, m < j.cmd.memberCount → (t.core (memberCore kiln m)).mx.part = some ⟨j.cmd, 0, 0, m, true, 0, 5, 0, 0⟩)) ∧
  (∀ (s : State) (j : GmmaJob), let kiln := s.arg.who
    let mine := memberCore kiln s.arg.what
    (s.cluster kiln).gmmaRun = some j →
      (1 < j.left → ∃ t : State, exec .gmmaPartDone s = .next t ∧ (t.cluster kiln).gmmaRun = some { j with left := j.left - 1 } ∧
        t.mem = s.mem ∧ (∀ p, (s.core mine).mx.part = some p → p.waiting = 1 → (t.core mine).mx.part = none) ∧
        ((∀ p, (s.core mine).mx.part = some p → p.waiting ≠ 1) → t.cores = s.cores)) ∧
      (∀ r, j.left ≤ 1 → j.fault = none → (s.core j.core).mx.run = some r → s.sameCtx j.cmd.gid j.cmd.gen = true →
        ∃ t : State, exec .gmmaPartDone s = .next t ∧ (t.cluster kiln).gmmaRun = none ∧
          (t.core j.core).mx.run = some { r with waiting := 1 } ∧ ∃ n ∈ t.agenda, n.ev = .mxWritesAcked ∧ n.arg.who = j.core)) ∧
  (∀ (s : State) (a b : MxRun), let lead := s.arg.who
    (s.core lead).mx.run = some a → (s.core (lead + 1)).mx.run = some b → a.waiting = 4 → b.waiting = 4 →
      (a.digest = b.digest → a.cmd.kind = 5 →
        ∃ t : State, exec .accstDigestCompare s = .next t ∧
          (t.core lead).mx.run = some { a with waiting := 0, asked := s.cycle, load := 8 } ∧
          (t.core (lead + 1)).mx.run = some { b with waiting := 1 } ∧ t.mem = s.mem ∧
          ∃ n ∈ t.agenda, n.ev = .mxGroup ∧ n.arg.who = lead) ∧
      (a.digest ≠ b.digest →
        ∃ t : State, exec .accstDigestCompare s = .next t ∧ t.mem = s.mem ∧ (t.ctx a.cmd.gid).eerr = true ∧
          (t.ctx b.cmd.gid).eerr = true))

/-- R5, R74, R129, R130, R136, R146, R250, R385, R386, R445, R446, R448: the steps behind the control window and the control pages:
TLBINV, RDCLEN and DOMGEN start their removals and end them, SNAPCTL copies a die, TIMESET sets the timebase once, plain fields are
set, ERRCNT clears by ones, a partition is enabled or refused, disabled once idle, and RESUME ends a HALT. The model's choices: that a
snapshot copies everything at one cycle (notes/assumptions/25.md), that any write of TIMESET but the first counts, whoever made it
(30.md), and which generations a fence drops (34.md). -/
def Obligations.RegisterWritesAct : Prop :=
  ∀ (s : State), let k := s.arg.who
    let d := s.die k
    let x := word s.arg.val
    (d.tlbDone = true →
      ∃ t : State, exec .tlbinvWrite s = .next t ∧ (t.die k).tlbDone = false ∧ (t.die k).tlbPage = x.setWidth 20 ∧ t.mem = s.mem ∧
        ∃ n ∈ t.agenda, n.ev = .tlbinvDone ∧ n.arg.who = k ∧ s.cycle < n.at_ ∧ n.at_ ≤ s.cycle + 300) ∧
    (d.tlbDone = false → (∀ y ∈ s.slices, y.1 / Config.slices = k → d.tlbPage.toNat ∉ y.2.walks) →
      ∃ t : State, exec .tlbinvDone s = .next t ∧ (t.die k).tlbDone = true ∧ t.mem = s.mem ∧
        ∀ h, h / Config.slices = k → ∀ y ∈ (t.slice h).tlb, y.1 ≠ d.tlbPage.toNat) ∧
    (d.rdcDone = true →
      ∃ t : State, exec .rdclenWrite s = .next t ∧ (t.die k).rdcDone = false ∧ (t.die k).rdcLen = x.setWidth 40 ∧ (t.die k).rdcFrom = d.rdcBase ∧ t.mem = s.mem ∧
        ∃ n ∈ t.agenda, n.ev = .rdcRemovalDone ∧ n.arg.who = k) ∧
    (d.rdcDone = false →
      ∃ t : State, exec .rdcRemovalDone s = .next t ∧ (t.die k).rdcDone = true ∧ t.mem = s.mem ∧ ∀ y ∈ (t.die k).rdc,
        ¬ (2 ^ 8 * d.rdcFrom.toNat ≤ y.addr ∧ y.addr < 2 ^ 8 * d.rdcFrom.toNat + d.rdcLen.toNat)) ∧
    (d.domDone = true →
      ∃ t : State, exec .domgenWrite s = .next t ∧ (t.die k).domDone = false ∧ (t.die k).domDom = x.setWidth 16 ∧
        (t.die k).domGen = s.domGenOf k (x.setWidth 16) + 1 ∧ t.domGenOf k (x.setWidth 16) = s.domGenOf k (x.setWidth 16) + 1) ∧
    (d.domDone = false →
      ∃ t : State, exec .domgenDone s = .next t ∧ (t.die k).domDone = true ∧ t.mem = s.mem ∧
        ∀ g, t.fenced k d.domDom g = (decide (g ≠ d.domGen) && decide ((d.domGen - g).toNat < 2 ^ 7))) ∧
    (d.snapDone = true →
      ∃ t : State, exec .snapctlGo s = .next t ∧ (t.die k).snapDone = false ∧ t.mem = s.mem ∧
        ∃ n ∈ t.agenda, n.ev = .snapshotDone ∧ n.arg.who = k) ∧
    (d.snapDone = false →
      ∃ t : State, exec .snapshotDone s = .next t ∧ (t.die k).snapDone = true ∧ (t.die k).snapSeq = d.snapSeq + 1 ∧ t.mem = s.mem ∧
        ∃ x, (t.die k).snapshot = some x ∧ x.slices = (s.slices.filter fun y => y.1 / Config.slices == k) ∧
          x.cores = (s.cores.filter fun y => y.1 / 512 == k) ∧ x.ctxs = (s.ctxs.filter fun y => dieOfCore (y.2.at y.1) == k) ∧
          x.clusters = (s.clusters.filter fun y => y.1 / 64 == k) ∧
          x.objects = (s.tags.filter fun y => s.holderSlice y.1 / Config.slices == k).map fun y => (y.1, y.2, memBytes s.mem (64 * y.1) 64)) ∧
    (d.timeSet = false → s.arg.ext = .write .pf →
      ∃ t : State, exec .timesetWrite s = .next t ∧ (t.die k).timeSet = true ∧ t.time k = x ∧ t.mem = s.mem) ∧
    (d.timeSet = true →
      ∃ t : State, exec .timesetWrite s = .next t ∧ t.die k = d ∧ (t.func 0).errcnt = (s.func 0).errcnt + 1) ∧
    (k < 2 → s.arg.what = 0 →
      ∃ t : State, exec .registerWrite s = .next t ∧ (t.die k).framebase = x.setWidth 14 ∧ t.mem = s.mem ∧ t.cores = s.cores) ∧
    (∀ v, k = 2 → s.arg.what = 2 ^ 8 * v + 24 → 1 ≤ v → v ≤ 64 → (s.part v).enable = false →
      ∃ t : State, exec .registerWrite s = .next t ∧ (t.part v).domBase = x.setWidth 16 ∧ (t.part v).domCount.toNat = bits x 31 16 ∧
        (t.part v).hdom.toNat = bits x 47 32 ∧ (t.part v).clusters = (s.part v).clusters ∧ t.mem = s.mem) ∧
    (∀ v, k = 2 → s.arg.what = 2 ^ 8 * v + 24 → 1 ≤ v → v ≤ 64 → (s.part v).enable = true → exec .registerWrite s = .next s) ∧
    (∀ fn, k = fn + 2 → ∃ t : State, exec .errcntClear s = .next t ∧ t.mem = s.mem ∧
      ∀ j, (t.func fn).errcnt.getLsbD j = ((s.func fn).errcnt.getLsbD j && !(x.getLsbD j))) ∧
    (let v := s.arg.what / 2 ^ 8
     let p := { s.part v with sagQuota := x.setWidth 32 }
     (s.part v).enable = false →
      (s.partitionOk v p = true → p.inShadow = false → (∀ c ∈ p.clusterList, (s.die (c / 64)).bootFail = false) →
        ∃ t : State, exec .partitionEnable s = .next t ∧ (t.part v).enable = true ∧ (t.part v).clusters = p.clusters ∧ t.mem = s.mem) ∧
      (s.partitionOk v p = false →
        ∃ t : State, exec .partitionEnable s = .next t ∧ (t.part v).enable = false ∧ t.pf.errlog = s.pf.errlog + 1)) ∧
    ((s.part (s.arg.what / 2 ^ 8)).enable = true →
      ∃ t : State, exec .partitionDisable s = .next t ∧ (t.part (s.arg.what / 2 ^ 8)).disabling = true ∧
        (t.part (s.arg.what / 2 ^ 8)).enable = true) ∧
    ((s.part k).disabling = true →
      (s.partitionIdle k = true → ∃ t : State, exec .enableClearEffect s = .next t ∧ (t.part k).enable = false ∧ t.mem = s.mem) ∧
      (s.partitionIdle k = false → ∃ t : State, exec .enableClearEffect s = .next t ∧ t.parts = s.parts ∧ t.mem = s.mem)) ∧
    (∀ c, let p := (s.arg.what - 2 ^ 20) / 2 ^ 16
      (s.cluster (64 * k + p / 9)).served (p % 9) = some c →
      let g := gidOf (8 * (64 * k + p / 9) + c) (s.arg.val % 2 ^ 12)
      (s.ctx g).wait = .halted false → (s.ctx g).st = .parked → (s.ctx g).slot ≠ none →
        ∃ t : State, exec .resumeGo s = .next t ∧ (t.ctx g).resuming = true ∧ (t.ctx g).s = (s.ctx g).s ∧ t.mem = s.mem)

/-- R128, R136, R378 to R380, R420, R447, R452 to R456: the host's side and the service functions. A partition halts, drains, and passes
to shadow storage with its slab empty, a HALT or GO waiting for a core hand-over with what was written; the aperture writes and reads
bytes or counts an error; BAR2 reads the census and counts writes; secure boot starts or refuses a die, and reports it; a report carries
the nonce and both signatures, while service firmware runs; the clock steps within its cap. The model's choices: the report's order
(notes/assumptions/6.md), the exchange as one step (45.md), the host's checks byte by byte (49.md), how a new CLKCAP takes effect (50.md),
that a walk is looked for every 16 cycles (60.md), GO with shadow storage taken (66.md), how BAR2 is read (71.md), and what needs service
firmware (72.md). -/
def Obligations.HostAndServiceStepsAct : Prop :=
  ∀ (s : State), let v := s.arg.who
    let out := s.pf.out.toNat
    (v ≠ swapWaits → out ≠ 0 → (s.part out).enable = true → s.handing (s.part out).clusterList = true →
      ∃ t : State, exec .swapctlHalt s = .next t ∧ t.pf = s.pf ∧ t.clusters = s.clusters ∧
        ∃ n ∈ t.agenda, n.ev = .swapctlHalt ∧ n.arg = ⟨swapWaits, out, 0, .none⟩) ∧
    (v ≠ swapWaits → out ≠ 0 → (s.part out).enable = true → s.handing (s.part out).clusterList = false →
      ∃ t : State, exec .swapctlHalt s = .next t ∧ t.pf.halting = s.pf.halting ++ [out] ∧ (∀ x ∈ t.pf.drained, x ≠ out) ∧ t.mem = s.mem ∧
        t.ctxs = s.ctxs ∧
        ∀ c ∈ (s.part out).clusterList, (t.cluster c).halted = true ∧ (t.cluster c).cpHalted = true) ∧
    (v ∈ s.pf.halting → (∀ c ∈ (s.part v).clusterList, s.clusterDrained c = true) →
      ∃ t : State, exec .haltDrained s = .next t ∧ t.pf.drained = s.pf.drained ++ [v] ∧ (∀ x ∈ t.pf.halting, x ≠ v) ∧ t.mem = s.mem ∧
        t.ctxs = s.ctxs) ∧
    (v ≠ swapWaits → s.pf.done = true → s.goRefused out s.pf.inn.toNat = true →
      ∃ t : State, exec .swapctlGo s = .next t ∧ (t.func 0).errcnt = (s.func 0).errcnt + 1 ∧ t.pf = s.pf) ∧
    (v ≠ swapWaits → s.pf.done = true → s.goRefused out s.pf.inn.toNat = false →
      let handing := s.handing (s.part (if out = 0 then s.pf.inn.toNat else out)).clusterList
      ∃ t : State, exec .swapctlGo s = .next t ∧ t.pf.done = false ∧ t.mem = s.mem ∧
        (handing = false → ∃ n ∈ t.agenda, n.ev = .swapExchangeDone ∧ n.arg.who = out ∧ n.arg.what = s.pf.inn.toNat ∧
          n.at_ ≤ s.cycle + 7200) ∧
        (handing = true → ∃ n ∈ t.agenda, n.ev = .swapctlGo ∧ n.arg = ⟨swapWaits, out, s.pf.inn.toNat, .none⟩)) ∧
    (s.pf.done = false → v ≠ 0 → s.arg.what = 0 → rising 0 s.ctxs = true →
      let cls := (s.part v).clusterList
      ∃ t : State, exec .swapExchangeDone s = .next t ∧ t.pf.done = true ∧ (t.part v).enable = false ∧ (t.part v).inShadow = true ∧
        (∀ a, (∀ c ∈ cls, inSlab c (a, 0) = false) → memGet t.mem a = memGet s.mem a) ∧
        (∀ a, (∃ c ∈ cls, inSlab c (a, 0) = true) → memGet t.mem a = 0) ∧
        (∀ g, (s.ctx g).st = .parked → clusterOf (s.at g) ∈ cls → s.swappedOut g = false →
          (t.ctx g).st = .swapped ∧ (t.ctx g).s = (s.ctx g).s ∧ (t.ctx g).pc = (s.ctx g).pc)) ∧
    (∀ data flag, s.arg.ext = .bytes data flag →
      (∀ a, (s.func v).aperture s.arg.what = some a →
        let near := (s.lookUp (byteAddrs a data.length)).1 = true ∧ s.hostWaits v s.arg.val = false
        (∀ ps, near → s.hostPlaces v a data.length true = some ps → ∃ t : State, exec .bar4Write s = .next t ∧
          t.mem = (ps.zip data).foldl (fun m x => memSet m x.1 x.2) s.mem ∧ t.tags = s.tags) ∧
        (near → s.hostPlaces v a data.length true = none →
          ∃ t : State, exec .bar4Write s = .next t ∧ t.mem = s.mem ∧ (t.func v).errcnt = (s.func v).errcnt + 1) ∧
        (¬near → ∃ t : State, exec .bar4Write s = .next t ∧ t.mem = s.mem ∧
          ∃ n ∈ t.agenda, n.ev = .bar4Write ∧ n.arg.who = v ∧ n.arg.what = s.arg.what ∧ n.arg.ext = s.arg.ext ∧ 0 < n.arg.val ∧
            n.at_ = s.cycle + 16)) ∧
      ((s.func v).aperture s.arg.what = none →
        ∃ t : State, exec .bar4Write s = .next t ∧ t.mem = s.mem ∧ (t.func v).errcnt = (s.func v).errcnt + 1)) ∧
    (∀ a ps, (s.func v).aperture s.arg.what = some a → s.hostPlaces v a s.arg.val false = some ps → (∀ p ∈ ps, p / 64 ∉ s.poison) →
      (s.lookUp (byteAddrs a s.arg.val)).1 = true → s.hostWrites v = false → ∃ t : State, exec .bar4Read s = .next t ∧ t.mem = s.mem ∧
        t.hostReads = (ps.map (fun p => memGet s.mem p), false) :: s.hostReads) ∧
    ((s.func v).aperture s.arg.what = none →
      ∃ t : State, exec .bar4Read s = .next t ∧ t.mem = s.mem ∧ (t.func v).errcnt = (s.func v).errcnt + 1 ∧
        t.hostReads = (List.replicate s.arg.val (255 : Byte), false) :: s.hostReads) ∧
    (s.arg.ext = .bar0 → s.arg.what + s.arg.val ≤ 0x3FF0000 →
      ∃ t : State, exec .bar2Read s = .next t ∧ t.hostReads = (List.replicate s.arg.val (0 : Byte), false) :: s.hostReads ∧
        t.mem = s.mem ∧ t.cores = s.cores ∧ t.ctxs = s.ctxs ∧ t.dies = s.dies) ∧
    (s.arg.ext ≠ .bar0 → s.arg.what = 8 → s.arg.val = 8 →
      ∃ t : State, exec .bar2Read s = .next t ∧ t.hostReads = (bytesOfNat 8 (s.die 0).frames.toNat, false) :: s.hostReads ∧
        t.mem = s.mem ∧ t.cores = s.cores ∧ t.ctxs = s.ctxs ∧ t.dies = s.dies) ∧
    (∃ t : State, exec .bar2Write s = .next t ∧ (t.func v).errcnt = (s.func v).errcnt + 1 ∧ t.mem = s.mem ∧ t.dies = s.dies) ∧
    (∀ nonce flag, s.arg.ext = .bytes nonce flag → nonce.length = 32 →
      (s.assayRuns = true → ∃ t : State, exec .attestationRequest s = .next t ∧ t.assay.report.take 32 = nonce ∧
        t.assay.signed = [Config.sign 0 (Config.sha384 t.assay.report), Config.sign 1 (Config.sha384 t.assay.report)] ∧ t.mem = s.mem ∧
        t.mctp = .attestation t.assay.report t.assay.signed :: s.mctp) ∧
      (s.assayRuns = false → exec .attestationRequest s = .next s)) ∧
    ((s.die v).booted = false → (s.die v).bootFail = false →
      (Config.bootVerifies v = true → s.assay.fuses ≤ Config.bootVersion v → Config.bootVersion v ≤ 128 →
        ∃ t : State, exec .secureBoot s = .next t ∧ (t.die v).booted = true ∧ t.assay.fuses = Config.bootVersion v ∧
          (t.die v).bootFail = false) ∧
      (Config.bootVerifies v = false ∨ Config.bootVersion v < s.assay.fuses →
        ∃ t : State, exec .secureBoot s = .next t ∧ (t.die v).booted = false ∧ (t.die v).bootFail = true ∧
          t.assay.fuses = s.assay.fuses ∧ t.mctp = .bootFail v :: s.mctp)) ∧
    (s.arg.val = 1 → s.assay.clock < 12 →
      ∃ t : State, exec .clockStep s = .next t ∧ t.assay.clock = s.assay.clock + 1 ∧ (∀ die, die < 2 → t.time die = s.time die) ∧
        t.mem = s.mem) ∧
    (s.arg.val = 2 →
      (s.pf.clkcap.toNat < s.assay.clock →
        ∃ t : State, exec .clockStep s = .next t ∧ t.assay.clock = s.assay.clock - 1 ∧ (∀ die, die < 2 → t.time die = s.time die)) ∧
      (s.assay.clock ≤ s.pf.clkcap.toNat → exec .clockStep s = .next s)) ∧
    (s.arg.val = 0 → s.assay.clock < s.pf.clkcap.toNat →
      ∃ t : State, exec .clockStep s = .next t ∧ t.assay.clock = s.assay.clock + 1)

/-- R101, R139, R141 to R145, R149, R153, R157, R383, R442: the dispatcher. It takes a packet with a QGET, goes on when one is answered
without an entry, verifies it once the pages of its working-set list are at hand, waits for its counter and its time, places its
contexts with their registers, ends it with its completion add or its notice, and PURGE rejects what has not begun to place. That its
QGET carries .nw (notes/assumptions/63.md) and that it looks for the pages of the list again 16 cycles later (notes/assumptions/60.md)
is the model's choice. -/
def Obligations.DispatcherRunsPackets : Prop :=
  ∀ (s : State), let die := s.arg.who
    let idx := s.arg.what
    let asks := fun (t : State) (op : Nat) (a x : Word) => ∃ m ∈ t.net, ∃ r, m.body = .request r ∧ r.op = op ∧ r.addr = a ∧ r.operand = x ∧
      r.nw = (op == 0x34) ∧ r.ctxid = 0xFFFFFFF0 + die
    let told := fun (t : State) (p : Packet) (code : Nat) => bits (p.w 15) 31 0 ≠ 2 ^ 32 - 1 → ∃ m ∈ t.net, ∃ x,
      m.body = .posted (bits (p.w 15) 31 0) x 2 ∧ x.w2 = p.qseq ∧ x.w3 = word code
    let gone := fun (t : State) => rising 0 (s.die die).packets = true → t.packet die idx = none
    (∀ v prio a k, idx = 0 → ((s.die die).packets.all fun p => p.2.words != []) = true → s.partitionToServe die = some (v, prio, a) →
      s.freePacket die = some k → bits a 55 46 = Config.moduleNumber →
        ∃ t : State, exec .dispatcherTake s = .next t ∧ asks t 0x34 a 0 ∧ t.mem = s.mem ∧
          (∃ p, t.packet die k = some p ∧ p.st = .verify ∧ p.vf = v ∧ p.words = [])) ∧
    (∀ p k, idx = k + 1 → s.packet die k = some p → p.st = .verify → p.words ≠ [] →
      ∃ t : State, exec .dispatcherTake s = .next t ∧ t.dies = s.dies ∧ ∃ n ∈ t.agenda, n.ev = .packetVerify ∧
        n.arg = ⟨die, k, 0, .none⟩) ∧
    (∀ p k, idx = k + 1 → s.packet die k = some p → p.st = .verify → p.words = [] →
      ∃ t : State, exec .dispatcherTake s = .next t ∧ (rising 0 (s.die die).packets = true → t.packet die k = none) ∧ t.mem = s.mem ∧
        ∃ n ∈ t.agenda, n.ev = .dispatcherTake ∧ n.arg.who = die ∧ n.arg.what = 0) ∧
    (∀ p, s.packet die idx = some p → p.st = .verify → p.words ≠ [] → (s.listLookUp p).1 = false →
      ∃ t : State, exec .packetVerify s = .next t ∧ t.packet die idx = some p ∧ t.mem = s.mem ∧
        ∃ n ∈ t.agenda, n.ev = .packetVerify ∧ n.arg = ⟨die, idx, 0, .none⟩ ∧ n.at_ = s.cycle + 16) ∧
    (∀ p, s.packet die idx = some p → p.st = .verify → p.words ≠ [] → (s.listLookUp p).1 = true → let look := (s.listLookUp p).2
      (∀ code, look.verifyCode p = code → code ≠ 0 →
        ∃ t : State, exec .packetVerify s = .next t ∧ gone t ∧ told t p code ∧ t.mem = s.mem ∧
          (t.part p.vf).rejLog.seq = (s.part p.vf).rejLog.seq + 1 ∧ (t.part p.vf).rejLog.records.head? =
            some (p.words ++ [p.qseq, word code, s.time die, 0, 0, 0, 0, 0])) ∧
      (look.verifyCode p = 0 → p.depctr = 0 → p.w 12 = 0 →
        ∃ t : State, exec .packetVerify s = .next t ∧ (t.packet die idx).map (·.st) = some .placing ∧ t.mem = s.mem) ∧
      (look.verifyCode p = 0 → p.depctr ≠ 0 → bits p.depctr 55 46 = Config.moduleNumber →
        ∃ t : State, exec .packetVerify s = .next t ∧ (t.packet die idx).map (·.st) = some .depend ∧ asks t 0x2C p.depctr (p.w 9))) ∧
    (∀ p, s.packet die idx = some p → p.st = .depend →
      (s.arg.val = 0 → p.w 12 = 0 →
        ∃ t : State, exec .depctrGrant s = .next t ∧ (t.packet die idx).map (·.st) = some .placing) ∧
      (s.arg.val ≠ 0 → ∃ t : State, exec .depctrGrant s = .next t ∧ gone t ∧ told t p 7) ∧
      (bits p.depctr 55 46 = Config.moduleNumber →
        ∃ t : State, exec .depctrRetry s = .next t ∧ t.dies = s.dies ∧ asks t 0x2C p.depctr (p.w 9))) ∧
    (∀ p, s.packet die idx = some p → p.st = .timed →
      (p.w 12 = 0 ∨ 0 ≤ (s.time die - p.w 12).toInt →
        ∃ t : State, exec .notbeforeReached s = .next t ∧ (t.packet die idx).map (·.st) = some .placing) ∧
      (p.w 12 ≠ 0 → (s.time die - p.w 12).toInt < 0 →
        ∃ t : State, exec .notbeforeReached s = .next t ∧ (t.packet die idx).map (·.st) = some .timed)) ∧
    (∀ p k core n slot rest, k < 2 ^ 12 → (s.die die).lastPlace ≤ s.cycle →
      ((s.die die).packets.filter fun q => decide (q.2.st = .placing)) = [(k, p)] → s.packet die k = some p → p.twin = false →
      s.chooseCore p = some core → s.mayCreate core false = true → core < Config.cores → s.freeNum core = some n → (s.core core).freeSlots = slot :: rest →
        ∃ t : State, exec .placeContext s = .next t ∧ (t.die die).lastPlace = s.cycle + 8 ∧ let c := t.ctx (gidOf core n)
          c.st = .running ∧ c.slot = some slot ∧ c.getS 3 = word p.placed ∧ c.getS 4 = p.w 1 ∧ c.getS 5 = p.w 2 ∧ c.getS 6 = p.w 3 ∧
          c.getS 7 = p.w 4 ∧ c.pc = word (bits (p.w 0) 56 0) ∧ c.domain = (p.w 13).setWidth 16 ∧ c.tfmt = (p.w 5).setWidth 32 ∧
          (∃ q, t.packet die k = some q ∧ q.placed = p.placed + 1 ∧ (p.placed + 1 = p.count → q.st = .running) ∧
            (p.placed + 1 ≠ p.count → q.st = .placing))) ∧
    (∀ p, s.packet die idx = some p → p.refused = none →
      (p.st = .running → p.live = 0 → p.records = 0 → s.arg.val = 0 →
        (p.killed = true → ∃ t : State, exec .packetComplete s = .next t ∧ gone t ∧ told t p 0x100) ∧
        (p.killed = false → p.donectr = 0 → ∃ t : State, exec .packetComplete s = .next t ∧ gone t ∧ told t p 0) ∧
        (p.killed = false → p.donectr ≠ 0 → bits p.donectr 55 46 = Config.moduleNumber →
          ∃ t : State, exec .packetComplete s = .next t ∧ (t.packet die idx).map (·.st) = some .complete ∧
            asks t 0x2B p.donectr (p.w 11))) ∧
      (p.st = .complete → s.arg.val = 1 → ∃ t : State, exec .packetComplete s = .next t ∧ gone t ∧ told t p 0)) ∧
    (∀ p k, s.packet 0 k = some p → (s.die 0).packets = [(k, p)] → (s.die 1).packets = [] → p.words ≠ [] → p.vf = s.arg.val % 2 ^ 7 →
      (p.st = .depend → ∃ t : State, exec .purge s = .next t ∧ t.packet 0 k = none ∧ told t p 8) ∧
      (p.st = .verify ∨ p.st = .timed →
        ∃ t : State, exec .purge s = .next t ∧ t.packet 0 k = none ∧ told t p 8 ∧ t.mem = s.mem) ∧
      (p.st = .placing ∨ p.st = .running → ∃ t : State, exec .purge s = .next t ∧ t.packet 0 k = some p))

/-- R289, R306, R409, R411 to R415, R430 to R432, R450: errors and repair. A compare point whose two bundles and operands are equal is
released and takes effect; different ones roll both contexts back, a second mismatch at the bundle sends both the kill's cause; the
restore puts the checkpoints back; equal images become the checkpoints; a register is replayed, its pair rolled back, or its context
sent the kill's cause; an uncorrectable HBM error poisons its sector; rows that a bank unit computed differently stop a pair's command
with ENGINE_ERROR; a switch output that has lost both ports, each by 8 parity failures in a row, is a module failure; the rail obeys
its hour. What a compare point holds and what the two images share (notes/assumptions/20.md), which errors lie where and that the
module failure is a fault (42), how soon the rail moves (50), and that a die without firmware has no governor (72) is the model's
choice. -/
def Obligations.ErrorsAreRepaired : Prop :=
  (∀ (s : State) (l t : TwinInfo), let lead := s.arg.who
    let a := s.ctx lead
    let b := s.ctx l.partner
    a.twin = some l → b.twin = some t → l.partner ≠ lead → t.partner = lead → l.leader = true → t.leader = false → a.kill = none →
      (∀ h id, s.arg.what = 0 → (l.points.find? fun x => x.bundle + 1 == s.arg.val) = some h → some h.bun = t.heldBun → h.sig = t.sig →
        h.acc = some id →
        ∃ u : State, exec .twinCompare s = .next u ∧
          ((u.ctx lead).twin.map (·.points)) = some (l.points.filter fun x => x.bundle != h.bundle) ∧
          ((u.ctx lead).twin.map (·.mismatches)) = some [] ∧
          (∀ k n, h.image = some (k, n) → ((u.ctx lead).twin.map fun x => (x.checkpoint, x.base)) = some (k, n)) ∧
          (t.holding = true → b.st = .parked → b.slot ≠ none → (u.ctx l.partner).resuming = true ∧
            ((u.ctx l.partner).twin.map fun x => (x.released, x.holding)) = some (true, false)) ∧
          (∀ c i p, s.acc id = some c → c.parts[i]? = some p → p.stage = .sent → ∃ n ∈ u.agenda, n.ev = .accessAccepted ∧
            n.arg.who = id ∧ n.arg.what = i)) ∧
      (∀ h, s.arg.what = 0 → (l.points.find? fun x => x.bundle + 1 == s.arg.val) = some h → some h.bun = t.heldBun → h.sig = t.sig →
        h.acc = none → a.wait = .comparator → a.relMask = 0 →
        (∀ r, a.held = some (.object r) → bits r.addr 55 46 = Config.moduleNumber →
          ∃ u : State, exec .twinCompare s = .next u ∧ (u.ctx lead).wait = .object r.id false ∧ (u.ctx lead).held = none ∧
            ∃ m ∈ u.net, m.body = .request r) ∧
        (∀ dest w0 w2 w3 nw, a.held = some (.send dest w0 w2 w3 nw) →
          ∃ u : State, exec .twinCompare s = .next u ∧ (u.ctx lead).wait = .answer ∧
            ∃ m ∈ u.net, m.body = .user dest ⟨dest, 0, w0, word lead, w2, w3⟩ lead nw) ∧
        (a.held = some .halt → ∃ u : State, exec .twinCompare s = .next u ∧ (u.ctx lead).wait = .halted false)) ∧
      (∀ n, (s.arg.what ≠ 0 ∧ n = t.issued) ∨ (s.arg.what = 0 ∧ ∃ h, (l.points.find? fun x => x.bundle + 1 == s.arg.val) = some h ∧
          (some h.bun ≠ t.heldBun ∨ h.sig ≠ t.sig) ∧ n = h.bundle) →
        (n ∉ l.mismatches →
          ∃ u : State, exec .twinCompare s = .next u ∧ (u.ctx lead).wait = .restore ∧ (u.ctx l.partner).wait = .restore ∧
            (u.ctx lead).rbk = a.rbk + 1 ∧ (u.ctx l.partner).rbk = b.rbk + 1 ∧ u.mem = s.mem ∧
            ((u.ctx lead).twin.map fun x => (x.mismatches, x.points)) = some (n :: l.mismatches, []) ∧
            ∃ d ∈ u.agenda, d.ev = .twinRestoreDone ∧ d.arg.who = lead ∧ d.at_ = s.cycle + 48) ∧
        (n ∈ l.mismatches → b.kill = none → a.st = .parked → b.st = .parked →
          ∃ u : State, exec .twinCompare s = .next u ∧ Cause.twinMismatch ∈ (u.ctx lead).async ∧
            Cause.twinMismatch ∈ (u.ctx l.partner).async ∧ (∃ n ∈ u.agenda, n.ev = .asyncCauseTaken ∧ n.arg.who = lead) ∧
            ∃ n ∈ u.agenda, n.ev = .asyncCauseTaken ∧ n.arg.who = l.partner)) ∧
      (a.wait = .restore → b.wait = .restore →
        ∃ u : State, exec .twinRestoreDone s = .next u ∧ (u.ctx lead).s = l.checkpoint.s ∧ (u.ctx lead).v = l.checkpoint.v ∧
          (u.ctx lead).m = l.checkpoint.m ∧ (u.ctx lead).pc = l.checkpoint.pc ∧ (u.ctx l.partner).s = t.checkpoint.s ∧
          (u.ctx l.partner).v = t.checkpoint.v ∧ (u.ctx l.partner).m = t.checkpoint.m ∧ (u.ctx l.partner).pc = t.checkpoint.pc ∧
          ((u.ctx lead).twin.map fun x => (x.issued, x.taken, x.replaying)) = some (l.base, 0, l.queue.length) ∧
          ((u.ctx l.partner).twin.map fun x => (x.issued, x.taken, x.replaying)) = some (t.base, 0, 0) ∧ u.mem = s.mem) ∧
      (a.wait = .issue → l.points = [] → l.taken = l.queue.length → t.issued = l.issued → b.pend = [] →
        (a.settled.snapshot.shared = b.settled.snapshot.shared →
          ∃ u : State, exec .checkpointCompare s = .next u ∧ u.mem = s.mem ∧
            ((u.ctx lead).twin.map fun x => (x.checkpoint, x.base, x.queue)) = some (a.settled.snapshot, l.issued, []) ∧
            ((u.ctx l.partner).twin.map fun x => (x.checkpoint, x.base)) = some (b.settled.snapshot, t.issued)) ∧
        (a.settled.snapshot.shared ≠ b.settled.snapshot.shared → t.issued ∉ l.mismatches →
          ∃ u : State, exec .checkpointCompare s = .next u ∧ (u.ctx lead).wait = .restore ∧ (u.ctx l.partner).wait = .restore))) ∧
  (∀ (s : State), let g := s.arg.who
    let c := s.ctx g
    let holds := fun (e : ReplayEntry) => e.dests.any fun r => r.code == s.arg.what
    (c.st = .running → c.kill = none → c.replay.any holds = true →
      ∃ u : State, exec .registerRepair s = .next u ∧ (u.ctx g).st = .parked ∧ (u.ctx g).wait = .restore ∧ (u.ctx g).s = c.s ∧
        ∃ n ∈ u.agenda, n.ev = .replayDone ∧ n.arg.who = g ∧ n.arg.what = s.arg.what ∧ n.at_ ≤ s.cycle + 48) ∧
    (c.st = .running → c.kill = none → c.replay.any holds = false → c.twin = none →
      ∃ u : State, exec .registerRepair s = .next u ∧
        Cause.parityKill ∈ (u.ctx g).async ∧ (u.ctx g).fatalTval = word s.arg.what ∧ (u.ctx g).kill = none) ∧
    (∀ t, c.st = .running → c.kill = none → c.replay.any holds = false → c.twin = some t → t.leader = true →
      ∃ u : State, exec .registerRepair s = .next u ∧ (u.ctx g).wait = .restore ∧
        ∃ n ∈ u.agenda, n.ev = .twinRestoreDone ∧ n.arg.who = g ∧ n.at_ = s.cycle + 48) ∧
    (∀ e, c.st = .parked → c.wait = .restore → c.slot ≠ none → c.replay.find? holds = some e →
      ∃ u : State, exec .replayDone s = .next u ∧ (u.ctx g).resuming = true ∧ u.mem = s.mem ∧
        RegsAfter c (u.ctx g) (e.writes.filter fun w => w.reg.code == s.arg.what))) ∧
  (∀ (s : State) (k : ArrayKind),
    (∀ b, s.arg.ext = .array k b → k = .flit → let d := s.die s.arg.who
      let n := (mapGet d.hops s.arg.what).getD 0
      let other := if s.arg.what % 2 = 0 then s.arg.what + 1 else s.arg.what - 1
      (mapGet d.hops other = some 8 → n = 8 ∨ (n = 7 ∧ s.arg.val ≠ 1) → exec .arrayError s = .fault .moduleFailure) ∧
      (mapGet d.hops other ≠ some 8 ∨ (n ≠ 8 ∧ (n ≠ 7 ∨ s.arg.val = 1)) →
        ∃ u : State, exec .arrayError s = .next u ∧ u.mem = s.mem ∧ u.ctxs = s.ctxs ∧ (u.die s.arg.who).netErrs = d.netErrs + 1 ∧
          (u.die s.arg.who).hourErrs = d.hourErrs + 1 ∧ (u.die s.arg.who).rail = d.rail - 2 ∧
          (n ≠ 8 → mapGet (u.die s.arg.who).hops s.arg.what = some (if s.arg.val = 1 then 1 else n + 1)))) ∧
    (s.arg.ext = .array k false → k = .hbm ∨ k = .l2data →
      ∃ u : State, exec .arrayError s = .next u ∧ s.arg.what / 64 ∈ u.poison ∧ u.mem = s.mem ∧ u.ctxs = s.ctxs ∧
        (s.arg.who < 2 * Config.slices → (u.slice s.arg.who).uncorrected = (s.slice s.arg.who).uncorrected + 1)) ∧
    (∀ c rest a, s.arg.ext = .array k false → k = .bankUnit → ((s.core s.arg.who).bank s.arg.what).cmdQ = c :: rest →
      s.acc c.acc = some a → (s.ctx a.gid).twin ≠ none → (s.ctx a.gid).rcause = 0 →
      ∃ u : State, exec .arrayError s = .next u ∧ (u.ctx a.gid).rcause.toNat = Cause.engineError ∧
        (u.ctx a.gid).rtval = word (2 ^ 32 * Cause.twinMismatch + 2 ^ 41)) ∧
    (s.arg.ext = .array k true → k = .shadow → ∃ u : State, exec .arrayError s = .next u ∧ u.poison = s.poison ∧ u.mem = s.mem ∧
      (u.die (s.arg.who / 64)).rail = (s.die (s.arg.who / 64)).rail - 2 ∧
      (u.die (s.arg.who / 64)).hourErrs = (s.die (s.arg.who / 64)).hourErrs + 1) ∧
    (s.arg.ext = .array k true → k = .hbm → s.arg.who < 2 * Config.slices → ∃ u : State, exec .arrayError s = .next u ∧ u.poison = s.poison ∧ u.mem = s.mem ∧
      (u.die (s.arg.who / Config.slices)).rail = (s.die (s.arg.who / Config.slices)).rail - 2 ∧
      (u.die (s.arg.who / Config.slices)).hourErrs = (s.die (s.arg.who / Config.slices)).hourErrs + 1 ∧
      (u.slice s.arg.who).corrected = (s.slice s.arg.who).corrected + 1)) ∧
  (∀ (s : State), let d := s.die s.arg.who
    (∃ u : State, exec .voltageLower s = .next u ∧ (u.die s.arg.who).hourErrs = 0 ∧
      (s.pf.nouv = false → d.hourErrs < 4 → d.bootFail = false → d.rail < 12 → (u.die s.arg.who).rail = d.rail + 1) ∧
      (s.pf.nouv = false → d.hourErrs < 4 → d.bootFail = false → 12 ≤ d.rail → (u.die s.arg.who).rail = 12) ∧
      (s.pf.nouv = true ∨ 4 ≤ d.hourErrs ∨ d.bootFail = true → (u.die s.arg.who).rail = d.rail)) ∧
    (∃ u : State, exec .nouvWrite s = .next u ∧ u.pf.nouv = decide (s.arg.val % 2 = 1) ∧
      (s.arg.val % 2 = 1 → (u.die 0).rail = 0 ∧ (u.die 1).rail = 0)))

/-- R146, R355 to R357, R359, R409, R432: a link port. A packet leaves in flits that stay in the retry buffer, none while 256 are
unacknowledged; a flit in order is delivered once, acknowledged within 64 cycles and its packet's slot returned, a bad or early one
answered by a NAK that repeats until it comes; a NAK sends the named flits again; a lane's failure stops the port, which comes
back at the widest width its lanes allow; TIME flits carry the timebase. How flits are numbered, cut and acknowledged where R356 leaves
it open (notes/assumptions/54.md), how a tick is gained (55) and that a bad flit raises the rail (50) is the model's choice. -/
def Obligations.LinksDeliverInOrder : Prop :=
  ∀ (s : State), let n := s.arg.who
    let p := s.port n
    (∀ bs x, s.arg.ext = .bytes bs x → p.up = true → let f := readFlit bs
      f.cls ≠ 4 →
      (f.crcOk = true → f.seq = p.expSeq →
        ∃ t : State, exec .linkFlitReceive s = .next t ∧ (t.port n).expSeq = (p.expSeq + 1) % 2 ^ 12 ∧
          (t.port n).delivered = p.delivered + 1 ∧ (t.port n).nak = false ∧ (t.port n).ackDue = true ∧
          (p.pend = [] → p.sending = [] → f.eop = true →
            mapGet (t.port n).owed f.cls = some ((mapGet p.owed f.cls).getD 0 + 1)) ∧
          ∃ d ∈ t.agenda, d.ev = .ackTimer ∧ d.arg.who = n) ∧
      (f.crcOk = true → p.expSeq < 2 ^ 12 → f.seq < p.expSeq → p.expSeq - f.seq ≤ 256 → exec .linkFlitReceive s = .next s) ∧
      (f.crcOk = false →
        ∃ t : State, exec .linkFlitReceive s = .next t ∧ (t.port n).expSeq = p.expSeq ∧ (t.port n).delivered = p.delivered ∧
          (t.port n).nak = true ∧ (t.port n).out = .nak p.expSeq :: p.out ∧ (t.port n).errs = p.errs + 1 ∧
          (t.die (dieOfPort n)).hourErrs = (s.die (dieOfPort n)).hourErrs + 1 ∧ ∃ d ∈ t.agenda, d.ev = .nakRepeat ∧ d.arg.who = n)) ∧
    (p.up = false → exec .linkFlitReceive s = .next s ∧ exec .nakRepeat s = .next s ∧
      ∃ t : State, exec .nakReceive s = .next t ∧ (t.port n).out = p.out) ∧
    (∀ bs b, s.arg.ext = .bytes bs b → let m := s.arg.what
      let q := s.port m
      (q.inService = false → exec .switchOutputGrant s = .next s) ∧
      (q.inService = true → q.up = true → q.pend = [] → q.sending = [] → q.retry.length < 256 → q.slots s.arg.val ≠ 0 → bs.length ≤ 112 →
        ∃ (t : State) (f : Flit), exec .switchOutputGrant s = .next t ∧ (t.port m).retry = q.retry ++ [(q.nextSeq, f)] ∧
          (t.port m).nextSeq = (q.nextSeq + 1) % 2 ^ 12 ∧ f.seq = q.nextSeq ∧ f.cls = s.arg.val ∧ f.data = bs ∧ f.sop = true ∧
          f.eop = true ∧ (f.credit, f.cclass) = q.credit ∧ (t.port m).slots s.arg.val = q.slots s.arg.val - 1 ∧ ∃ a, (t.port m).out = .flit { f with ack := a } :: q.out) ∧
      (q.inService = true → q.up = true → 256 ≤ q.retry.length →
        ∃ t : State, exec .switchOutputGrant s = .next t ∧ (t.port m).out = q.out ∧ (t.port m).pend = q.pend ++ [(s.arg.val, bs)])) ∧
    (∀ q f, p.up = true → p.retry = [(q, f)] → s.arg.val ≤ q → q < s.arg.val + 256 → q < 2 ^ 12 →
      ∃ t : State, exec .nakReceive s = .next t ∧ (t.port n).out = .flit f :: p.out ∧ (t.port n).retry = p.retry) ∧
    (p.nak = true → p.up = true → ∃ t : State, exec .nakRepeat s = .next t ∧ (t.port n).out = .nak p.expSeq :: p.out) ∧
    (p.nak = false → exec .nakRepeat s = .next s) ∧
    (p.ackDue = true ∨ p.owed ≠ [] → p.up = true → 0 < p.expSeq → p.expSeq < 2 ^ 12 →
      ∃ (t : State) (os : List LinkOut), exec .ackTimer s = .next t ∧ (t.port n).out = os ++ p.out ∧
        os.length = Nat.max 1 p.owed.length ∧ .ack (p.expSeq - 1) p.credit.1 p.credit.2 ∈ os ∧ (t.port n).ackDue = false) ∧
    (s.arg.what < 8 → ∃ t : State, exec .laneFailure s = .next t ∧ (t.port n).up = false ∧ t.mem = s.mem ∧
      (∀ i, (t.port n).good.getLsbD i = (p.good.getLsbD i && decide (i ≠ s.arg.what))) ∧
      ∃ d ∈ t.agenda, d.ev = .retrainDone ∧ d.arg.who = n ∧ d.at_ ≤ s.cycle + 3600) ∧
    (p.up = false → let whole := fun w => ∃ g, g < 8 / w ∧ ∀ i, i < w → p.good.getLsbD (g * w + i) = true
      ∃ t : State, exec .retrainDone s = .next t ∧ (t.port n).up = decide ((t.port n).width ≠ 0) ∧
        (∀ w, w = 1 ∨ w = 2 ∨ w = 4 ∨ w = 8 → whole w → w ≤ (t.port n).width) ∧
        ((t.port n).width = 0 ∨ (((t.port n).width = 1 ∨ (t.port n).width = 2 ∨ (t.port n).width = 4 ∨ (t.port n).width = 8) ∧
          whole (t.port n).width))) ∧
    (p.up = true → p.inService = true →
      ∃ t : State, exec .timeFlitSend s = .next t ∧ (t.port n).sentAt = s.time (dieOfPort n) ∧
        (t.port n).out = .time (s.time (dieOfPort n)) :: p.out ∧ ∃ d ∈ t.agenda, d.ev = .timeFlitSend ∧ d.arg.who = n) ∧
    (s.arg.ext = .none →
      ∃ t : State, exec .timeFlitReceive s = .next t ∧ (t.port n).gotAt = s.time (dieOfPort n) ∧
        (t.port n).peerSent = word s.arg.val ∧ t.dies = s.dies) ∧
    (∀ b, s.arg.ext = .bytes b true →
      ∃ t : State, exec .timeFlitReceive s = .next t ∧ (t.die 0).sync = true ∧ (t.die 1).sync = true ∧
        (t.time 0 = s.time 0 ∨ t.time 0 = s.time 0 + 1)) ∧
    (∃ t : State, exec .syncLoss s = .next t ∧ (t.die 0).sync = false ∧ (t.die 1).sync = false ∧ t.time 0 = s.time 0)

/-- R420 to R426, R428 to R430, R433, R450: leases. A due port or core starts its lease; a core at rest is handed over to the spare or,
past its deadline, stopped and moved; lines move one at a time; a drained port is tested; a test's end logs the lease and returns
the resource or retires it; scores halve and HBEAT counts. No lease starts on a die whose firmware was not started (R419, R452; that
HBEAT goes on with the other die's Assay is the model's choice, notes/assumptions/72.md). -/
def Obligations.LeasesRun : Prop :=
  ∀ (s : State), let key := s.arg.who
    let a := s.assay
    (s.arg.what = 0 → a.due = [] → a.leases = [] → a.gone = [] →
      (3000 ≤ key → (s.die (assayOfKey key)).bootFail = false → (s.port (key - 3000)).retry ≠ [] →
        ∃ t : State, exec .leaseStart s = .next t ∧ (∃ l, t.assay.leases = [l] ∧ l.key = key ∧ l.cls = .port ∧ l.stage = 2) ∧
          t.assay.due = [] ∧ (t.port (key - 3000)).inService = false ∧ (t.port (key - 3000)).draining = true) ∧
      (∀ k, key < 2000 → (s.die (assayOfKey key)).bootFail = false → (s.cluster (key / 9)).halted = false →
        s.exchanging (key / 9) = false → (s.cluster (key / 9)).sparePresent = true →
        key % 9 ≠ (s.cluster (key / 9)).sparePos → (s.cluster (key / 9)).served (key % 9) = some k →
        ∃ t : State, exec .leaseStart s = .next t ∧ (∃ l, t.assay.leases = [l] ∧ l.key = key ∧ l.path = 0 ∧ l.ident = 8 * (key / 9) + k) ∧
          (t.cluster (key / 9)).leasedCore = some (8 * (key / 9) + k) ∧ (t.core (8 * (key / 9) + k)).leaseHold = true ∧
          ∃ n ∈ t.agenda, n.ev = .handoverDone ∧ n.arg.who = key) ∧
      ((s.die (assayOfKey key)).bootFail = true →
        ∃ t : State, exec .leaseStart s = .next t ∧ t.assay.leases = [] ∧ t.assay.due.map (·.1) = [key])) ∧
    (∀ l, a.leases = [l] → l.key = key →
      (l.stage = 0 → s.coreDrained l.ident = true → s.arg.what = 1 → let x := s.cluster (clusterOf l.ident)
        x.positions.length = 8 →
        ∃ t : State, exec .handoverDone s = .next t ∧ (t.cluster (clusterOf l.ident)).positions.getD (l.ident % 8) 9 = x.sparePos ∧
          (t.cluster (clusterOf l.ident)).sparePos = x.positions.getD (l.ident % 8) (l.ident % 8) ∧
          (t.cluster (clusterOf l.ident)).leasedCore = none ∧ (t.core l.ident).leaseHold = false ∧ (t.core l.ident).l1d = [] ∧
          (t.assay.leases.map (·.stage)) = [3] ∧ t.mem = s.mem ∧ ∃ n ∈ t.agenda, n.ev = .testEnd ∧ n.arg.who = key) ∧
      (l.stage = 1 → 0 ≤ (s.time (dieOfCore l.ident) - l.grace).toInt →
        (s.cluster (key / 9)).halted = false →
        ∃ t : State, exec .graceDeadline s = .next t ∧ (t.assay.leases.map (·.stage)) = [2] ∧ (t.core l.ident).leaseHold = true ∧
          (t.core l.ident).mx.halted = true ∧ t.mem = s.mem) ∧
      (l.stage = 1 → (s.time (dieOfCore l.ident) - l.grace).toInt < 0 →
        ∃ t : State, exec .graceDeadline s = .next t ∧ t.assay = s.assay ∧ t.cores = s.cores) ∧
      (l.stage = 2 → l.cls = .core → s.coreDrained l.ident = true → s.arg.what = 1 → s.ctxsOf l.ident = [] → (s.core l.ident).mx.run = none →
        (s.core l.ident).mx.part = none → (s.core l.ident).mx.queue = [] →
        ∃ t : State, exec .moveDone s = .next t ∧ (t.core l.ident).present = false ∧ (t.assay.leases.map (·.stage)) = [3] ∧
          (∀ x, slabPlace l.ident 0 ≤ x → x < slabPlace (l.ident + 1) 0 → memGet t.mem x = 0) ∧
          (∀ x, x < slabPlace l.ident 0 ∨ slabPlace (l.ident + 1) 0 ≤ x → memGet t.mem x = memGet s.mem x) ∧
          (t.core l.ident).mx.acc = [] ∧
          (∃ e ∈ (t.cluster (clusterOf l.ident)).saved, e.core = l.ident ∧ e.acc = (s.core l.ident).mx.acc ∧ ∀ x,
            slabPlace l.ident 0 ≤ x → x < slabPlace (l.ident + 1) 0 → memGet e.slab x = memGet s.mem x)) ∧
      (l.stage = 3 → s.arg.what = 0 → l.cls = .core → l.path ≠ 1 → s.arg.ext = .test .core .passed → l.score < 16384 →
        ∃ t : State, exec .testEnd s = .next t ∧ t.assay.leases = [] ∧ (t.cluster (key / 9)).sparePresent = true ∧
          t.assay.leaseLog.seq = a.leaseLog.seq + 1 ∧ t.assay.retired = a.retired) ∧
      (∀ pat addr u, l.stage = 3 → s.arg.what = 0 → l.cls = .core → l.path ≠ 1 → s.arg.ext = .test .core (.failed pat addr u) →
        ∃ t : State, exec .testEnd s = .next t ∧ t.assay.leases = [] ∧ t.assay.retired.length = a.retired.length + 1 ∧
          key ∈ t.assay.gone ∧ (t.cluster (key / 9)).sparePresent = (s.cluster (key / 9)).sparePresent)) ∧
    ((s.slice key).leased = true → (s.slice key).moveNext < channelLines →
      ∃ t : State, exec .lineMove s = .next t ∧ (t.slice key).moveNext ≤ (s.slice key).moveNext + 1 ∧ t.mem = s.mem ∧
        ((s.slice key).moveNext + 1 < channelLines → (t.slice key).moveNext = (s.slice key).moveNext + 1)) ∧
    (∀ l, (s.port key).draining = true → (s.port key).retry = [] → (s.port key).pend = [] → (s.port key).sending = [] → a.leases = [l] → l.key = 3000 + key →
      ∃ t : State, exec .portDrained s = .next t ∧ (t.port key).draining = false ∧ (t.assay.leases.map (·.stage)) = [3] ∧
        ∃ n ∈ t.agenda, n.ev = .testEnd ∧ n.arg.who = 3000 + key) ∧
    (∃ t : State, exec .scoreTick s = .next t ∧ t.mem = s.mem ∧ (s.assayRuns = true → ∀ k, t.score k = s.score k / 2) ∧
      (s.assayRuns = false → t.assay.scores = s.assay.scores)) ∧
    (∃ t : State, exec .hbeatTick s = .next t ∧ t.mem = s.mem ∧ t.ctxs = s.ctxs ∧
      ((s.die 0).bootFail = false ∨ (s.die 1).bootFail = false → t.assay.hbeat = a.hbeat + 1) ∧
      ((s.die 0).bootFail = true → (s.die 1).bootFail = true → t.assay.hbeat = a.hbeat))

/-- R8 to R28: words written out from the encoding tables decode to the instructions they stand for; a reserved class, an unlisted
opcode, an extension that no half claims and a pair off its alignment are refused by name. -/
def Obligations.SpecWordsDecode : Prop :=
  decodeBundle true [0x502952C0#32] = .ok (⟨false, .add false 9 10 11, none⟩, 1) ∧
  decodeBundle false [0x4E895000#32] = .ok (⟨false, .kill 9 10 false false, none⟩, 1) ∧
  decodeBundle false [0x4E600001#32] = .ok (⟨false, .rft true, none⟩, 1) ∧
  decodeBundle false [0x5569E26A#32, 0xC048D159#32] = .ok (⟨false, .lui 9 ⟨0xE26A, some 0x48D159⟩, none⟩, 2) ∧
  decodeBundle false [0x6C000000#32] = .error (.illegalOp 0x6C000000) ∧
  decodeBundle true [0x00000000#32, 0x90000000#32] = .ok (⟨false, .nopc, some .nopa⟩, 2) ∧
  decodeBundle false [0x00000000#32, 0x90000000#32] = .error (.misalignedPair 0) ∧
  decodeBundle true [0x80000000#32] = .error (.illegalOp 0x80000000) ∧
  decodeBundle true [0x41800000#32] = .error (.illegalOp 0x41800000) ∧
  decodeBundle true [0x4EA00000#32, 0xC0000001#32] = .error (.extUnclaimed 0xC0000001)

/-- R8 to R28: the encoder's words of a bundle of well-formed instructions, with no extension word after them, decode to that bundle,
every operand at every value the encoding admits. -/
def Obligations.EncodedBundlesDecode : Prop :=
  ∀ (b : Bundle) (ws rest : List Code) (al : Bool), encodeBundle b = some ws → b.op.wf = true →
    (∀ t, b.tail = some t → t.wf = true ∧ destConflict b.op t = false ∧ al = true) → takeExt rest = [] →
      decodeBundle al (ws ++ rest) = .ok (b, ws.length)

/-- R8 to R28: what the decoder accepts is what the encoder writes, so no two words decode to the same bundle and no bit of a word is
dropped; the instructions it gives are well formed. -/
def Obligations.DecodedWordsAreTheEncoding : Prop :=
  ∀ (al : Bool) (ws : List Code) (b : Bundle) (n : Nat), decodeBundle al ws = .ok (b, n) →
    encodeBundle b = some (ws.take n) ∧ b.op.wf = true ∧ ∀ t, b.tail = some t → t.wf = true ∧ destConflict b.op t = false

/-- R3, R11, R178, R181, R192: the step of a turn runs exec of the instruction that the decoder reads from the words fetched at the pc, on
the state with the turn's cycle, context and bundle noted; words that decode to nothing run ILLEGAL_OP with the cause of the head or of
the bundle, those of a memory instruction only once it would issue; a turn that the context leaves its slot at, or whose slot is
stopped, runs nothing; a pair's context notes its checkpoint first, and passes or meets the comparator as notes/assumptions/20.md has
it, which is the model's choice; the step of an event runs exec of that event. -/
def Obligations.StepRunsTheDecodedInstruction : Prop :=
  (∀ (s : State) (cycle g : Nat), s.coming = .turn cycle g → let c := s.ctx g
    let here := { s with cycle := cycle, cur := g }
    (c.async = [] → ∀ w, here.stopped (here.at g) = some w → step s = .next (here.park g w)) ∧
    (c.async = [] → here.stopped (here.at g) = none → here.leavesNow g = true → step s = .next (here.leaveReady g)) ∧
    (∀ ws, c.async = [] → here.stopped (here.at g) = none → here.leavesNow g = false → c.twin = none ∨ here.trailerWaits c = false →
      c.latch = some (.words ws) →
      (∀ b n, decodeBundle (c.pc.toNat % 8 == 0) ws = .ok (b, n) → let run := { here with bun := b, blen := n }
        (c.twin = none → step s = exec b.op run) ∧
        (c.twin ≠ none →
          (run.pairTurn = .run → step s = exec b.op (run.modCtx g Ctx.checkpointed)) ∧
          (∀ t, run.pairTurn = .pass t → step s = .next t) ∧
          (run.pairTurn = .mismatch →
            step s = exec .twinCompare { run.modCtx g Ctx.checkpointed with arg := ⟨run.leaderOf g, 1, 0, .none⟩ }))) ∧
      (∀ f, decodeBundle (c.pc.toNat % 8 == 0) ws = .error f →
        let x := (headTrap (c.pc.toNat % 8 == 0) ws).getD (decodeTrap f)
        (here.wordHeld (ws.headD 0) = false →
          step s = exec .illegalOp { s with cycle := cycle, cur := g, arg := ⟨g, x.1, x.2.toNat, .none⟩ }) ∧
        (here.wordHeld (ws.headD 0) = true → step s = .next (here.holdIssue .issue))))) ∧
  (∀ (s : State) (d : Due) (rest : List Due), s.coming = .event d rest →
    step s = exec d.ev { s with agenda := rest, cycle := Nat.max s.cycle d.at_, arg := d.arg })

/-- R69, R76, R129, R136, R146, R250, R269, R308, R378, R427, R432, R445, R446, R448, R455: right after reset the PLB entries,
SVEC, the engines' sequence numbers, the partition descriptors with their listeners, the functions' pages, SWAPCTL, UVCTL and CLKCAP of the
PF and the registers of each die have the values their tables give. HBEAT, for which R445 gives none, is 0, which is the model's choice
(notes/assumptions/2.md). -/
def Obligations.ResetValues : Prop :=
  let r := State.reset
  (∀ k x, (r.core k).plbEntry x = 0) ∧ (∀ k, (r.core k).svec = 0 ∧ (r.core k).mx.seq = 0) ∧ (∀ k, (r.cluster k).cpSeq = 0) ∧
  (∀ v, let p := r.part v
    p.clusters = 0 ∧ p.wquota = 0 ∧ p.squota = 0 ∧ p.plimit = 0 ∧ p.domBase = 0 ∧ p.domCount = 0 ∧ p.hdom = 0 ∧
    (∀ x ∈ p.dq.toList, x = 0) ∧ (∀ x ∈ p.hrange.toList, x = 0) ∧ p.sagQuota = 0 ∧ p.enable = false ∧ p.hwen = false ∧ p.hwBase = 0 ∧
    (∀ x ∈ p.listen.toList, x = 0)) ∧
  (∀ f, (r.func f).apEn = false ∧ (r.func f).apBase = 0 ∧ (r.func f).errcnt = 0) ∧ r.pf.nouv = false ∧
  r.pf.out = 0 ∧ r.pf.inn = 0 ∧ r.pf.drained = [] ∧ r.pf.done = true ∧ r.pf.swapctl = 2 ^ 19 ∧ r.pf.clkcap = 0 ∧ r.assay.hbeat = 0 ∧
  (∀ d, let x := r.die d
    x.framebase = 0 ∧ x.frames = 7520 ∧ x.tlbPage = 0 ∧ x.tlbDone = true ∧ x.rdcBase = 0 ∧ x.rdcLen = 0 ∧ x.rdcDone = true ∧ x.domDom = 0 ∧ x.domGen = 0 ∧ x.domDone = true ∧
    x.snapDone = true ∧ x.snapSeq = 0 ∧ x.sync = false ∧ x.uvMargin = 0 ∧ r.time d = 0)

/-- Memory is canonical at reset. -/
def Obligations.ResetMemoryIsCanonical : Prop := State.reset.Inv

/-- Every step keeps the module's memory and the host's canonical, from every state in which they are: addresses rising, and no byte
listed that an unlisted place would read as. -/
def Obligations.StepsKeepMemoryCanonical : Prop := ∀ (s t : State), s.Inv → step s = .next t → t.Inv

/-- R409, R450: a step of any state answers a next state, but for the parity failure of a hop with which a switch output has lost both
its ports, which is a module failure (that this is the one fault is the model's choice, notes/assumptions/42.md): no instruction and no
other step stops the machine. Every instruction completes, and so does every step of an engine, a slot or the host, whatever the state
it meets. -/
def Obligations.StepsGoOn : Prop :=
  ∀ (s : State), let lost := fun (x : EvArg) => ∃ b, x.ext = .array .flit b ∧
      ((s.hopFails x.who x.what (x.val == 1)).die x.who).outputLost x.what = true
    ((∀ d ∈ s.agenda, d.ev = .arrayError → ¬ lost d.arg) → s.Goes) ∧
    (∀ i : Instr, (i = .arrayError → ¬ lost s.arg) → ∃ t : State, exec i s = .next t)

/-- R189, R190: an arithmetic word or NOPC with the marker issues in full; its slot then parks with wait reason 1 while registers are
pending, and with none pending a recorded cause is raised at once with the next bundle's address in TRAPPC. That the cause recorded next
then stands in RCAUSE is the model's choice, notes/assumptions/58.md. -/
def Obligations.MarkerWaitsAndRaises : Prop :=
  ∀ (s : State) (i : Instr) (e : Effect), let c := s.ctx s.cur
    (isArith i = true ∧ s.ClearFor i ∧ effectOf i c = .ok e) ∨ (i = .nopc ∧ s.HeadReady .nopc e) → s.bun.marker = true →
      (c.pend ++ pendOf e s.cycle ≠ [] →
        ∃ t : State, exec i s = .next t ∧ (t.ctx s.cur).st = .parked ∧ (t.ctx s.cur).wreason = 1 ∧ (t.ctx s.cur).marker = true ∧
          RegsAfter c (t.ctx s.cur) e.now ∧ (t.ctx s.cur).pend = c.pend ++ pendOf e s.cycle ∧ (t.ctx s.cur).pc = s.nextPc ∧
          (t.ctx s.cur).rcause = c.rcause ∧ SameMemory s t) ∧
      (c.pend ++ pendOf e s.cycle = [] → c.rcause ≠ 0 → c.rcause.toNat ≠ Cause.engineError → c.EntersNow c.rcause.toNat →
        ∃ t : State, exec i s = .next t ∧ RegsAfter c (t.ctx s.cur) e.now ∧ (t.ctx s.cur).trappc = s.nextPc.setWidth 57 ∧
          (t.ctx s.cur).tcause.toNat % 2 ^ 9 = c.rcause.toNat + 2 ^ 8 ∧ (t.ctx s.cur).tval = c.rtval ∧
          (t.ctx s.cur).rcause = (c.rnext.head?.map (·.cause)).getD 0 ∧
          (t.ctx s.cur).pprv = c.prv ∧ (t.ctx s.cur).pc = (if c.toUser c.rcause.toNat then c.tvecU else c.tvecS).setWidth 64 +
            word (64 * c.rcause.toNat) ∧ SameMemory s t)

/-- R75, R217, R367, R373, R387: no instruction that a context executes in user mode changes a PLB entry, a domain, a priority or another
context's mode, and its own mode only by entering the supervisor handler. (PPRV is 1 only where a handler was entered from supervisor
mode.) -/
def Obligations.UserModeKeepsProtection : Prop :=
  ∀ (s t : State) (i : Instr), i.hasWord = true → (s.ctx s.cur).prv = false → (s.ctx s.cur).pprv = false → exec i s = .next t →
    (∀ k, (t.core k).plb = (s.core k).plb) ∧
    (∀ g, (t.ctx g).domain = (s.ctx g).domain ∧ (t.ctx g).prio = (s.ctx g).prio) ∧
    (∀ g, g ≠ s.cur → (t.ctx g).prv = (s.ctx g).prv) ∧
    ((t.ctx s.cur).prv = true → (t.ctx s.cur).sh = true ∧
      ∃ cause, (t.ctx s.cur).pc = (s.ctx s.cur).tvecS.setWidth 64 + word (64 * cause))
end

