-- ==== Sys2Proof/Laws/State.lean ====
section
/-!
SUPPORT. What each named update of State leaves as it was, field by field.
-/
namespace Sys2Proof.Machine

@[simp] theorem State.setCtx_cycle (s : State) (g : Nat) (c : Ctx) : (s.setCtx g c).cycle = s.cycle := rfl
@[simp] theorem State.setCtx_agenda (s : State) (g : Nat) (c : Ctx) : (s.setCtx g c).agenda = s.agenda := rfl
@[simp] theorem State.setCtx_cur (s : State) (g : Nat) (c : Ctx) : (s.setCtx g c).cur = s.cur := rfl
@[simp] theorem State.setCtx_bun (s : State) (g : Nat) (c : Ctx) : (s.setCtx g c).bun = s.bun := rfl
@[simp] theorem State.setCtx_blen (s : State) (g : Nat) (c : Ctx) : (s.setCtx g c).blen = s.blen := rfl
@[simp] theorem State.setCtx_arg (s : State) (g : Nat) (c : Ctx) : (s.setCtx g c).arg = s.arg := rfl
@[simp] theorem State.setCtx_freeCount (s : State) (g : Nat) (c : Ctx) : (s.setCtx g c).freeCount = s.freeCount := rfl
@[simp] theorem State.setCtx_nextId (s : State) (g : Nat) (c : Ctx) : (s.setCtx g c).nextId = s.nextId := rfl
@[simp] theorem State.setCtx_mem (s : State) (g : Nat) (c : Ctx) : (s.setCtx g c).mem = s.mem := rfl
@[simp] theorem State.setCtx_tags (s : State) (g : Nat) (c : Ctx) : (s.setCtx g c).tags = s.tags := rfl
@[simp] theorem State.setCtx_poison (s : State) (g : Nat) (c : Ctx) : (s.setCtx g c).poison = s.poison := rfl
@[simp] theorem State.setCtx_cores (s : State) (g : Nat) (c : Ctx) : (s.setCtx g c).cores = s.cores := rfl
@[simp] theorem State.setCtx_clusters (s : State) (g : Nat) (c : Ctx) : (s.setCtx g c).clusters = s.clusters := rfl
@[simp] theorem State.setCtx_slices (s : State) (g : Nat) (c : Ctx) : (s.setCtx g c).slices = s.slices := rfl
@[simp] theorem State.setCtx_dies (s : State) (g : Nat) (c : Ctx) : (s.setCtx g c).dies = s.dies := rfl
@[simp] theorem State.setCtx_accs (s : State) (g : Nat) (c : Ctx) : (s.setCtx g c).accs = s.accs := rfl
@[simp] theorem State.setCtx_net (s : State) (g : Nat) (c : Ctx) : (s.setCtx g c).net = s.net := rfl
@[simp] theorem State.setCtx_parts (s : State) (g : Nat) (c : Ctx) : (s.setCtx g c).parts = s.parts := rfl
@[simp] theorem State.setCtx_funcs (s : State) (g : Nat) (c : Ctx) : (s.setCtx g c).funcs = s.funcs := rfl
@[simp] theorem State.setCtx_pf (s : State) (g : Nat) (c : Ctx) : (s.setCtx g c).pf = s.pf := rfl
@[simp] theorem State.setCtx_ports (s : State) (g : Nat) (c : Ctx) : (s.setCtx g c).ports = s.ports := rfl
@[simp] theorem State.setCtx_assay (s : State) (g : Nat) (c : Ctx) : (s.setCtx g c).assay = s.assay := rfl
@[simp] theorem State.setCtx_hostMem (s : State) (g : Nat) (c : Ctx) : (s.setCtx g c).hostMem = s.hostMem := rfl
@[simp] theorem State.setCtx_hostReads (s : State) (g : Nat) (c : Ctx) : (s.setCtx g c).hostReads = s.hostReads := rfl
@[simp] theorem State.setCtx_msix (s : State) (g : Nat) (c : Ctx) : (s.setCtx g c).msix = s.msix := rfl
@[simp] theorem State.setCtx_mctp (s : State) (g : Nat) (c : Ctx) : (s.setCtx g c).mctp = s.mctp := rfl

@[simp] theorem State.modCtx_cycle (s : State) (g : Nat) (f : Ctx → Ctx) : (s.modCtx g f).cycle = s.cycle := rfl
@[simp] theorem State.modCtx_agenda (s : State) (g : Nat) (f : Ctx → Ctx) : (s.modCtx g f).agenda = s.agenda := rfl
@[simp] theorem State.modCtx_cur (s : State) (g : Nat) (f : Ctx → Ctx) : (s.modCtx g f).cur = s.cur := rfl
@[simp] theorem State.modCtx_bun (s : State) (g : Nat) (f : Ctx → Ctx) : (s.modCtx g f).bun = s.bun := rfl
@[simp] theorem State.modCtx_blen (s : State) (g : Nat) (f : Ctx → Ctx) : (s.modCtx g f).blen = s.blen := rfl
@[simp] theorem State.modCtx_arg (s : State) (g : Nat) (f : Ctx → Ctx) : (s.modCtx g f).arg = s.arg := rfl
@[simp] theorem State.modCtx_freeCount (s : State) (g : Nat) (f : Ctx → Ctx) : (s.modCtx g f).freeCount = s.freeCount := rfl
@[simp] theorem State.modCtx_nextId (s : State) (g : Nat) (f : Ctx → Ctx) : (s.modCtx g f).nextId = s.nextId := rfl
@[simp] theorem State.modCtx_mem (s : State) (g : Nat) (f : Ctx → Ctx) : (s.modCtx g f).mem = s.mem := rfl
@[simp] theorem State.modCtx_tags (s : State) (g : Nat) (f : Ctx → Ctx) : (s.modCtx g f).tags = s.tags := rfl
@[simp] theorem State.modCtx_poison (s : State) (g : Nat) (f : Ctx → Ctx) : (s.modCtx g f).poison = s.poison := rfl
@[simp] theorem State.modCtx_cores (s : State) (g : Nat) (f : Ctx → Ctx) : (s.modCtx g f).cores = s.cores := rfl
@[simp] theorem State.modCtx_clusters (s : State) (g : Nat) (f : Ctx → Ctx) : (s.modCtx g f).clusters = s.clusters := rfl
@[simp] theorem State.modCtx_slices (s : State) (g : Nat) (f : Ctx → Ctx) : (s.modCtx g f).slices = s.slices := rfl
@[simp] theorem State.modCtx_dies (s : State) (g : Nat) (f : Ctx → Ctx) : (s.modCtx g f).dies = s.dies := rfl
@[simp] theorem State.modCtx_accs (s : State) (g : Nat) (f : Ctx → Ctx) : (s.modCtx g f).accs = s.accs := rfl
@[simp] theorem State.modCtx_net (s : State) (g : Nat) (f : Ctx → Ctx) : (s.modCtx g f).net = s.net := rfl
@[simp] theorem State.modCtx_parts (s : State) (g : Nat) (f : Ctx → Ctx) : (s.modCtx g f).parts = s.parts := rfl
@[simp] theorem State.modCtx_funcs (s : State) (g : Nat) (f : Ctx → Ctx) : (s.modCtx g f).funcs = s.funcs := rfl
@[simp] theorem State.modCtx_pf (s : State) (g : Nat) (f : Ctx → Ctx) : (s.modCtx g f).pf = s.pf := rfl
@[simp] theorem State.modCtx_ports (s : State) (g : Nat) (f : Ctx → Ctx) : (s.modCtx g f).ports = s.ports := rfl
@[simp] theorem State.modCtx_assay (s : State) (g : Nat) (f : Ctx → Ctx) : (s.modCtx g f).assay = s.assay := rfl
@[simp] theorem State.modCtx_hostMem (s : State) (g : Nat) (f : Ctx → Ctx) : (s.modCtx g f).hostMem = s.hostMem := rfl
@[simp] theorem State.modCtx_hostReads (s : State) (g : Nat) (f : Ctx → Ctx) : (s.modCtx g f).hostReads = s.hostReads := rfl
@[simp] theorem State.modCtx_msix (s : State) (g : Nat) (f : Ctx → Ctx) : (s.modCtx g f).msix = s.msix := rfl
@[simp] theorem State.modCtx_mctp (s : State) (g : Nat) (f : Ctx → Ctx) : (s.modCtx g f).mctp = s.mctp := rfl

@[simp] theorem State.setCore_cycle (s : State) (k : Nat) (c : Core) : (s.setCore k c).cycle = s.cycle := rfl
@[simp] theorem State.setCore_agenda (s : State) (k : Nat) (c : Core) : (s.setCore k c).agenda = s.agenda := rfl
@[simp] theorem State.setCore_cur (s : State) (k : Nat) (c : Core) : (s.setCore k c).cur = s.cur := rfl
@[simp] theorem State.setCore_bun (s : State) (k : Nat) (c : Core) : (s.setCore k c).bun = s.bun := rfl
@[simp] theorem State.setCore_blen (s : State) (k : Nat) (c : Core) : (s.setCore k c).blen = s.blen := rfl
@[simp] theorem State.setCore_arg (s : State) (k : Nat) (c : Core) : (s.setCore k c).arg = s.arg := rfl
@[simp] theorem State.setCore_freeCount (s : State) (k : Nat) (c : Core) : (s.setCore k c).freeCount = s.freeCount := rfl
@[simp] theorem State.setCore_nextId (s : State) (k : Nat) (c : Core) : (s.setCore k c).nextId = s.nextId := rfl
@[simp] theorem State.setCore_mem (s : State) (k : Nat) (c : Core) : (s.setCore k c).mem = s.mem := rfl
@[simp] theorem State.setCore_tags (s : State) (k : Nat) (c : Core) : (s.setCore k c).tags = s.tags := rfl
@[simp] theorem State.setCore_poison (s : State) (k : Nat) (c : Core) : (s.setCore k c).poison = s.poison := rfl
@[simp] theorem State.setCore_ctxs (s : State) (k : Nat) (c : Core) : (s.setCore k c).ctxs = s.ctxs := rfl
@[simp] theorem State.setCore_clusters (s : State) (k : Nat) (c : Core) : (s.setCore k c).clusters = s.clusters := rfl
@[simp] theorem State.setCore_slices (s : State) (k : Nat) (c : Core) : (s.setCore k c).slices = s.slices := rfl
@[simp] theorem State.setCore_dies (s : State) (k : Nat) (c : Core) : (s.setCore k c).dies = s.dies := rfl
@[simp] theorem State.setCore_accs (s : State) (k : Nat) (c : Core) : (s.setCore k c).accs = s.accs := rfl
@[simp] theorem State.setCore_net (s : State) (k : Nat) (c : Core) : (s.setCore k c).net = s.net := rfl
@[simp] theorem State.setCore_parts (s : State) (k : Nat) (c : Core) : (s.setCore k c).parts = s.parts := rfl
@[simp] theorem State.setCore_funcs (s : State) (k : Nat) (c : Core) : (s.setCore k c).funcs = s.funcs := rfl
@[simp] theorem State.setCore_pf (s : State) (k : Nat) (c : Core) : (s.setCore k c).pf = s.pf := rfl
@[simp] theorem State.setCore_ports (s : State) (k : Nat) (c : Core) : (s.setCore k c).ports = s.ports := rfl
@[simp] theorem State.setCore_assay (s : State) (k : Nat) (c : Core) : (s.setCore k c).assay = s.assay := rfl
@[simp] theorem State.setCore_hostMem (s : State) (k : Nat) (c : Core) : (s.setCore k c).hostMem = s.hostMem := rfl
@[simp] theorem State.setCore_hostReads (s : State) (k : Nat) (c : Core) : (s.setCore k c).hostReads = s.hostReads := rfl
@[simp] theorem State.setCore_msix (s : State) (k : Nat) (c : Core) : (s.setCore k c).msix = s.msix := rfl
@[simp] theorem State.setCore_mctp (s : State) (k : Nat) (c : Core) : (s.setCore k c).mctp = s.mctp := rfl

@[simp] theorem State.modCore_cycle (s : State) (k : Nat) (f : Core → Core) : (s.modCore k f).cycle = s.cycle := rfl
@[simp] theorem State.modCore_agenda (s : State) (k : Nat) (f : Core → Core) : (s.modCore k f).agenda = s.agenda := rfl
@[simp] theorem State.modCore_cur (s : State) (k : Nat) (f : Core → Core) : (s.modCore k f).cur = s.cur := rfl
@[simp] theorem State.modCore_bun (s : State) (k : Nat) (f : Core → Core) : (s.modCore k f).bun = s.bun := rfl
@[simp] theorem State.modCore_blen (s : State) (k : Nat) (f : Core → Core) : (s.modCore k f).blen = s.blen := rfl
@[simp] theorem State.modCore_arg (s : State) (k : Nat) (f : Core → Core) : (s.modCore k f).arg = s.arg := rfl
@[simp] theorem State.modCore_freeCount (s : State) (k : Nat) (f : Core → Core) : (s.modCore k f).freeCount = s.freeCount := rfl
@[simp] theorem State.modCore_nextId (s : State) (k : Nat) (f : Core → Core) : (s.modCore k f).nextId = s.nextId := rfl
@[simp] theorem State.modCore_mem (s : State) (k : Nat) (f : Core → Core) : (s.modCore k f).mem = s.mem := rfl
@[simp] theorem State.modCore_tags (s : State) (k : Nat) (f : Core → Core) : (s.modCore k f).tags = s.tags := rfl
@[simp] theorem State.modCore_poison (s : State) (k : Nat) (f : Core → Core) : (s.modCore k f).poison = s.poison := rfl
@[simp] theorem State.modCore_ctxs (s : State) (k : Nat) (f : Core → Core) : (s.modCore k f).ctxs = s.ctxs := rfl
@[simp] theorem State.modCore_clusters (s : State) (k : Nat) (f : Core → Core) : (s.modCore k f).clusters = s.clusters := rfl
@[simp] theorem State.modCore_slices (s : State) (k : Nat) (f : Core → Core) : (s.modCore k f).slices = s.slices := rfl
@[simp] theorem State.modCore_dies (s : State) (k : Nat) (f : Core → Core) : (s.modCore k f).dies = s.dies := rfl
@[simp] theorem State.modCore_accs (s : State) (k : Nat) (f : Core → Core) : (s.modCore k f).accs = s.accs := rfl
@[simp] theorem State.modCore_net (s : State) (k : Nat) (f : Core → Core) : (s.modCore k f).net = s.net := rfl
@[simp] theorem State.modCore_parts (s : State) (k : Nat) (f : Core → Core) : (s.modCore k f).parts = s.parts := rfl
@[simp] theorem State.modCore_funcs (s : State) (k : Nat) (f : Core → Core) : (s.modCore k f).funcs = s.funcs := rfl
@[simp] theorem State.modCore_pf (s : State) (k : Nat) (f : Core → Core) : (s.modCore k f).pf = s.pf := rfl
@[simp] theorem State.modCore_ports (s : State) (k : Nat) (f : Core → Core) : (s.modCore k f).ports = s.ports := rfl
@[simp] theorem State.modCore_assay (s : State) (k : Nat) (f : Core → Core) : (s.modCore k f).assay = s.assay := rfl
@[simp] theorem State.modCore_hostMem (s : State) (k : Nat) (f : Core → Core) : (s.modCore k f).hostMem = s.hostMem := rfl
@[simp] theorem State.modCore_hostReads (s : State) (k : Nat) (f : Core → Core) : (s.modCore k f).hostReads = s.hostReads := rfl
@[simp] theorem State.modCore_msix (s : State) (k : Nat) (f : Core → Core) : (s.modCore k f).msix = s.msix := rfl
@[simp] theorem State.modCore_mctp (s : State) (k : Nat) (f : Core → Core) : (s.modCore k f).mctp = s.mctp := rfl

@[simp] theorem State.modCluster_cycle (s : State) (k : Nat) (f : Cluster → Cluster) : (s.modCluster k f).cycle = s.cycle := rfl
@[simp] theorem State.modCluster_agenda (s : State) (k : Nat) (f : Cluster → Cluster) : (s.modCluster k f).agenda = s.agenda := rfl
@[simp] theorem State.modCluster_cur (s : State) (k : Nat) (f : Cluster → Cluster) : (s.modCluster k f).cur = s.cur := rfl
@[simp] theorem State.modCluster_bun (s : State) (k : Nat) (f : Cluster → Cluster) : (s.modCluster k f).bun = s.bun := rfl
@[simp] theorem State.modCluster_blen (s : State) (k : Nat) (f : Cluster → Cluster) : (s.modCluster k f).blen = s.blen := rfl
@[simp] theorem State.modCluster_arg (s : State) (k : Nat) (f : Cluster → Cluster) : (s.modCluster k f).arg = s.arg := rfl
@[simp] theorem State.modCluster_freeCount (s : State) (k : Nat) (f : Cluster → Cluster) : (s.modCluster k f).freeCount = s.freeCount := rfl
@[simp] theorem State.modCluster_nextId (s : State) (k : Nat) (f : Cluster → Cluster) : (s.modCluster k f).nextId = s.nextId := rfl
@[simp] theorem State.modCluster_mem (s : State) (k : Nat) (f : Cluster → Cluster) : (s.modCluster k f).mem = s.mem := rfl
@[simp] theorem State.modCluster_tags (s : State) (k : Nat) (f : Cluster → Cluster) : (s.modCluster k f).tags = s.tags := rfl
@[simp] theorem State.modCluster_poison (s : State) (k : Nat) (f : Cluster → Cluster) : (s.modCluster k f).poison = s.poison := rfl
@[simp] theorem State.modCluster_ctxs (s : State) (k : Nat) (f : Cluster → Cluster) : (s.modCluster k f).ctxs = s.ctxs := rfl
@[simp] theorem State.modCluster_cores (s : State) (k : Nat) (f : Cluster → Cluster) : (s.modCluster k f).cores = s.cores := rfl
@[simp] theorem State.modCluster_slices (s : State) (k : Nat) (f : Cluster → Cluster) : (s.modCluster k f).slices = s.slices := rfl
@[simp] theorem State.modCluster_dies (s : State) (k : Nat) (f : Cluster → Cluster) : (s.modCluster k f).dies = s.dies := rfl
@[simp] theorem State.modCluster_accs (s : State) (k : Nat) (f : Cluster → Cluster) : (s.modCluster k f).accs = s.accs := rfl
@[simp] theorem State.modCluster_net (s : State) (k : Nat) (f : Cluster → Cluster) : (s.modCluster k f).net = s.net := rfl
@[simp] theorem State.modCluster_parts (s : State) (k : Nat) (f : Cluster → Cluster) : (s.modCluster k f).parts = s.parts := rfl
@[simp] theorem State.modCluster_funcs (s : State) (k : Nat) (f : Cluster → Cluster) : (s.modCluster k f).funcs = s.funcs := rfl
@[simp] theorem State.modCluster_pf (s : State) (k : Nat) (f : Cluster → Cluster) : (s.modCluster k f).pf = s.pf := rfl
@[simp] theorem State.modCluster_ports (s : State) (k : Nat) (f : Cluster → Cluster) : (s.modCluster k f).ports = s.ports := rfl
@[simp] theorem State.modCluster_assay (s : State) (k : Nat) (f : Cluster → Cluster) : (s.modCluster k f).assay = s.assay := rfl
@[simp] theorem State.modCluster_hostMem (s : State) (k : Nat) (f : Cluster → Cluster) : (s.modCluster k f).hostMem = s.hostMem := rfl
@[simp] theorem State.modCluster_hostReads (s : State) (k : Nat) (f : Cluster → Cluster) : (s.modCluster k f).hostReads = s.hostReads := rfl
@[simp] theorem State.modCluster_msix (s : State) (k : Nat) (f : Cluster → Cluster) : (s.modCluster k f).msix = s.msix := rfl
@[simp] theorem State.modCluster_mctp (s : State) (k : Nat) (f : Cluster → Cluster) : (s.modCluster k f).mctp = s.mctp := rfl

@[simp] theorem State.modSlice_cycle (s : State) (k : Nat) (f : Slice → Slice) : (s.modSlice k f).cycle = s.cycle := rfl
@[simp] theorem State.modSlice_agenda (s : State) (k : Nat) (f : Slice → Slice) : (s.modSlice k f).agenda = s.agenda := rfl
@[simp] theorem State.modSlice_cur (s : State) (k : Nat) (f : Slice → Slice) : (s.modSlice k f).cur = s.cur := rfl
@[simp] theorem State.modSlice_bun (s : State) (k : Nat) (f : Slice → Slice) : (s.modSlice k f).bun = s.bun := rfl
@[simp] theorem State.modSlice_blen (s : State) (k : Nat) (f : Slice → Slice) : (s.modSlice k f).blen = s.blen := rfl
@[simp] theorem State.modSlice_arg (s : State) (k : Nat) (f : Slice → Slice) : (s.modSlice k f).arg = s.arg := rfl
@[simp] theorem State.modSlice_freeCount (s : State) (k : Nat) (f : Slice → Slice) : (s.modSlice k f).freeCount = s.freeCount := rfl
@[simp] theorem State.modSlice_nextId (s : State) (k : Nat) (f : Slice → Slice) : (s.modSlice k f).nextId = s.nextId := rfl
@[simp] theorem State.modSlice_mem (s : State) (k : Nat) (f : Slice → Slice) : (s.modSlice k f).mem = s.mem := rfl
@[simp] theorem State.modSlice_tags (s : State) (k : Nat) (f : Slice → Slice) : (s.modSlice k f).tags = s.tags := rfl
@[simp] theorem State.modSlice_poison (s : State) (k : Nat) (f : Slice → Slice) : (s.modSlice k f).poison = s.poison := rfl
@[simp] theorem State.modSlice_ctxs (s : State) (k : Nat) (f : Slice → Slice) : (s.modSlice k f).ctxs = s.ctxs := rfl
@[simp] theorem State.modSlice_cores (s : State) (k : Nat) (f : Slice → Slice) : (s.modSlice k f).cores = s.cores := rfl
@[simp] theorem State.modSlice_clusters (s : State) (k : Nat) (f : Slice → Slice) : (s.modSlice k f).clusters = s.clusters := rfl
@[simp] theorem State.modSlice_dies (s : State) (k : Nat) (f : Slice → Slice) : (s.modSlice k f).dies = s.dies := rfl
@[simp] theorem State.modSlice_accs (s : State) (k : Nat) (f : Slice → Slice) : (s.modSlice k f).accs = s.accs := rfl
@[simp] theorem State.modSlice_net (s : State) (k : Nat) (f : Slice → Slice) : (s.modSlice k f).net = s.net := rfl
@[simp] theorem State.modSlice_parts (s : State) (k : Nat) (f : Slice → Slice) : (s.modSlice k f).parts = s.parts := rfl
@[simp] theorem State.modSlice_funcs (s : State) (k : Nat) (f : Slice → Slice) : (s.modSlice k f).funcs = s.funcs := rfl
@[simp] theorem State.modSlice_pf (s : State) (k : Nat) (f : Slice → Slice) : (s.modSlice k f).pf = s.pf := rfl
@[simp] theorem State.modSlice_ports (s : State) (k : Nat) (f : Slice → Slice) : (s.modSlice k f).ports = s.ports := rfl
@[simp] theorem State.modSlice_assay (s : State) (k : Nat) (f : Slice → Slice) : (s.modSlice k f).assay = s.assay := rfl
@[simp] theorem State.modSlice_hostMem (s : State) (k : Nat) (f : Slice → Slice) : (s.modSlice k f).hostMem = s.hostMem := rfl
@[simp] theorem State.modSlice_hostReads (s : State) (k : Nat) (f : Slice → Slice) : (s.modSlice k f).hostReads = s.hostReads := rfl
@[simp] theorem State.modSlice_msix (s : State) (k : Nat) (f : Slice → Slice) : (s.modSlice k f).msix = s.msix := rfl
@[simp] theorem State.modSlice_mctp (s : State) (k : Nat) (f : Slice → Slice) : (s.modSlice k f).mctp = s.mctp := rfl

@[simp] theorem State.modDie_cycle (s : State) (k : Nat) (f : Die → Die) : (s.modDie k f).cycle = s.cycle := rfl
@[simp] theorem State.modDie_agenda (s : State) (k : Nat) (f : Die → Die) : (s.modDie k f).agenda = s.agenda := rfl
@[simp] theorem State.modDie_cur (s : State) (k : Nat) (f : Die → Die) : (s.modDie k f).cur = s.cur := rfl
@[simp] theorem State.modDie_bun (s : State) (k : Nat) (f : Die → Die) : (s.modDie k f).bun = s.bun := rfl
@[simp] theorem State.modDie_blen (s : State) (k : Nat) (f : Die → Die) : (s.modDie k f).blen = s.blen := rfl
@[simp] theorem State.modDie_arg (s : State) (k : Nat) (f : Die → Die) : (s.modDie k f).arg = s.arg := rfl
@[simp] theorem State.modDie_freeCount (s : State) (k : Nat) (f : Die → Die) : (s.modDie k f).freeCount = s.freeCount := rfl
@[simp] theorem State.modDie_nextId (s : State) (k : Nat) (f : Die → Die) : (s.modDie k f).nextId = s.nextId := rfl
@[simp] theorem State.modDie_mem (s : State) (k : Nat) (f : Die → Die) : (s.modDie k f).mem = s.mem := rfl
@[simp] theorem State.modDie_tags (s : State) (k : Nat) (f : Die → Die) : (s.modDie k f).tags = s.tags := rfl
@[simp] theorem State.modDie_poison (s : State) (k : Nat) (f : Die → Die) : (s.modDie k f).poison = s.poison := rfl
@[simp] theorem State.modDie_ctxs (s : State) (k : Nat) (f : Die → Die) : (s.modDie k f).ctxs = s.ctxs := rfl
@[simp] theorem State.modDie_cores (s : State) (k : Nat) (f : Die → Die) : (s.modDie k f).cores = s.cores := rfl
@[simp] theorem State.modDie_clusters (s : State) (k : Nat) (f : Die → Die) : (s.modDie k f).clusters = s.clusters := rfl
@[simp] theorem State.modDie_slices (s : State) (k : Nat) (f : Die → Die) : (s.modDie k f).slices = s.slices := rfl
@[simp] theorem State.modDie_accs (s : State) (k : Nat) (f : Die → Die) : (s.modDie k f).accs = s.accs := rfl
@[simp] theorem State.modDie_net (s : State) (k : Nat) (f : Die → Die) : (s.modDie k f).net = s.net := rfl
@[simp] theorem State.modDie_parts (s : State) (k : Nat) (f : Die → Die) : (s.modDie k f).parts = s.parts := rfl
@[simp] theorem State.modDie_funcs (s : State) (k : Nat) (f : Die → Die) : (s.modDie k f).funcs = s.funcs := rfl
@[simp] theorem State.modDie_pf (s : State) (k : Nat) (f : Die → Die) : (s.modDie k f).pf = s.pf := rfl
@[simp] theorem State.modDie_ports (s : State) (k : Nat) (f : Die → Die) : (s.modDie k f).ports = s.ports := rfl
@[simp] theorem State.modDie_assay (s : State) (k : Nat) (f : Die → Die) : (s.modDie k f).assay = s.assay := rfl
@[simp] theorem State.modDie_hostMem (s : State) (k : Nat) (f : Die → Die) : (s.modDie k f).hostMem = s.hostMem := rfl
@[simp] theorem State.modDie_hostReads (s : State) (k : Nat) (f : Die → Die) : (s.modDie k f).hostReads = s.hostReads := rfl
@[simp] theorem State.modDie_msix (s : State) (k : Nat) (f : Die → Die) : (s.modDie k f).msix = s.msix := rfl
@[simp] theorem State.modDie_mctp (s : State) (k : Nat) (f : Die → Die) : (s.modDie k f).mctp = s.mctp := rfl

@[simp] theorem State.modPart_cycle (s : State) (k : Nat) (f : Partition → Partition) : (s.modPart k f).cycle = s.cycle := rfl
@[simp] theorem State.modPart_agenda (s : State) (k : Nat) (f : Partition → Partition) : (s.modPart k f).agenda = s.agenda := rfl
@[simp] theorem State.modPart_cur (s : State) (k : Nat) (f : Partition → Partition) : (s.modPart k f).cur = s.cur := rfl
@[simp] theorem State.modPart_bun (s : State) (k : Nat) (f : Partition → Partition) : (s.modPart k f).bun = s.bun := rfl
@[simp] theorem State.modPart_blen (s : State) (k : Nat) (f : Partition → Partition) : (s.modPart k f).blen = s.blen := rfl
@[simp] theorem State.modPart_arg (s : State) (k : Nat) (f : Partition → Partition) : (s.modPart k f).arg = s.arg := rfl
@[simp] theorem State.modPart_freeCount (s : State) (k : Nat) (f : Partition → Partition) : (s.modPart k f).freeCount = s.freeCount := rfl
@[simp] theorem State.modPart_nextId (s : State) (k : Nat) (f : Partition → Partition) : (s.modPart k f).nextId = s.nextId := rfl
@[simp] theorem State.modPart_mem (s : State) (k : Nat) (f : Partition → Partition) : (s.modPart k f).mem = s.mem := rfl
@[simp] theorem State.modPart_tags (s : State) (k : Nat) (f : Partition → Partition) : (s.modPart k f).tags = s.tags := rfl
@[simp] theorem State.modPart_poison (s : State) (k : Nat) (f : Partition → Partition) : (s.modPart k f).poison = s.poison := rfl
@[simp] theorem State.modPart_ctxs (s : State) (k : Nat) (f : Partition → Partition) : (s.modPart k f).ctxs = s.ctxs := rfl
@[simp] theorem State.modPart_cores (s : State) (k : Nat) (f : Partition → Partition) : (s.modPart k f).cores = s.cores := rfl
@[simp] theorem State.modPart_clusters (s : State) (k : Nat) (f : Partition → Partition) : (s.modPart k f).clusters = s.clusters := rfl
@[simp] theorem State.modPart_slices (s : State) (k : Nat) (f : Partition → Partition) : (s.modPart k f).slices = s.slices := rfl
@[simp] theorem State.modPart_dies (s : State) (k : Nat) (f : Partition → Partition) : (s.modPart k f).dies = s.dies := rfl
@[simp] theorem State.modPart_accs (s : State) (k : Nat) (f : Partition → Partition) : (s.modPart k f).accs = s.accs := rfl
@[simp] theorem State.modPart_net (s : State) (k : Nat) (f : Partition → Partition) : (s.modPart k f).net = s.net := rfl
@[simp] theorem State.modPart_funcs (s : State) (k : Nat) (f : Partition → Partition) : (s.modPart k f).funcs = s.funcs := rfl
@[simp] theorem State.modPart_pf (s : State) (k : Nat) (f : Partition → Partition) : (s.modPart k f).pf = s.pf := rfl
@[simp] theorem State.modPart_ports (s : State) (k : Nat) (f : Partition → Partition) : (s.modPart k f).ports = s.ports := rfl
@[simp] theorem State.modPart_assay (s : State) (k : Nat) (f : Partition → Partition) : (s.modPart k f).assay = s.assay := rfl
@[simp] theorem State.modPart_hostMem (s : State) (k : Nat) (f : Partition → Partition) : (s.modPart k f).hostMem = s.hostMem := rfl
@[simp] theorem State.modPart_hostReads (s : State) (k : Nat) (f : Partition → Partition) : (s.modPart k f).hostReads = s.hostReads := rfl
@[simp] theorem State.modPart_msix (s : State) (k : Nat) (f : Partition → Partition) : (s.modPart k f).msix = s.msix := rfl
@[simp] theorem State.modPart_mctp (s : State) (k : Nat) (f : Partition → Partition) : (s.modPart k f).mctp = s.mctp := rfl

@[simp] theorem State.modFunc_cycle (s : State) (k : Nat) (f : Func → Func) : (s.modFunc k f).cycle = s.cycle := rfl
@[simp] theorem State.modFunc_agenda (s : State) (k : Nat) (f : Func → Func) : (s.modFunc k f).agenda = s.agenda := rfl
@[simp] theorem State.modFunc_cur (s : State) (k : Nat) (f : Func → Func) : (s.modFunc k f).cur = s.cur := rfl
@[simp] theorem State.modFunc_bun (s : State) (k : Nat) (f : Func → Func) : (s.modFunc k f).bun = s.bun := rfl
@[simp] theorem State.modFunc_blen (s : State) (k : Nat) (f : Func → Func) : (s.modFunc k f).blen = s.blen := rfl
@[simp] theorem State.modFunc_arg (s : State) (k : Nat) (f : Func → Func) : (s.modFunc k f).arg = s.arg := rfl
@[simp] theorem State.modFunc_freeCount (s : State) (k : Nat) (f : Func → Func) : (s.modFunc k f).freeCount = s.freeCount := rfl
@[simp] theorem State.modFunc_nextId (s : State) (k : Nat) (f : Func → Func) : (s.modFunc k f).nextId = s.nextId := rfl
@[simp] theorem State.modFunc_mem (s : State) (k : Nat) (f : Func → Func) : (s.modFunc k f).mem = s.mem := rfl
@[simp] theorem State.modFunc_tags (s : State) (k : Nat) (f : Func → Func) : (s.modFunc k f).tags = s.tags := rfl
@[simp] theorem State.modFunc_poison (s : State) (k : Nat) (f : Func → Func) : (s.modFunc k f).poison = s.poison := rfl
@[simp] theorem State.modFunc_ctxs (s : State) (k : Nat) (f : Func → Func) : (s.modFunc k f).ctxs = s.ctxs := rfl
@[simp] theorem State.modFunc_cores (s : State) (k : Nat) (f : Func → Func) : (s.modFunc k f).cores = s.cores := rfl
@[simp] theorem State.modFunc_clusters (s : State) (k : Nat) (f : Func → Func) : (s.modFunc k f).clusters = s.clusters := rfl
@[simp] theorem State.modFunc_slices (s : State) (k : Nat) (f : Func → Func) : (s.modFunc k f).slices = s.slices := rfl
@[simp] theorem State.modFunc_dies (s : State) (k : Nat) (f : Func → Func) : (s.modFunc k f).dies = s.dies := rfl
@[simp] theorem State.modFunc_accs (s : State) (k : Nat) (f : Func → Func) : (s.modFunc k f).accs = s.accs := rfl
@[simp] theorem State.modFunc_net (s : State) (k : Nat) (f : Func → Func) : (s.modFunc k f).net = s.net := rfl
@[simp] theorem State.modFunc_parts (s : State) (k : Nat) (f : Func → Func) : (s.modFunc k f).parts = s.parts := rfl
@[simp] theorem State.modFunc_pf (s : State) (k : Nat) (f : Func → Func) : (s.modFunc k f).pf = s.pf := rfl
@[simp] theorem State.modFunc_ports (s : State) (k : Nat) (f : Func → Func) : (s.modFunc k f).ports = s.ports := rfl
@[simp] theorem State.modFunc_assay (s : State) (k : Nat) (f : Func → Func) : (s.modFunc k f).assay = s.assay := rfl
@[simp] theorem State.modFunc_hostMem (s : State) (k : Nat) (f : Func → Func) : (s.modFunc k f).hostMem = s.hostMem := rfl
@[simp] theorem State.modFunc_hostReads (s : State) (k : Nat) (f : Func → Func) : (s.modFunc k f).hostReads = s.hostReads := rfl
@[simp] theorem State.modFunc_msix (s : State) (k : Nat) (f : Func → Func) : (s.modFunc k f).msix = s.msix := rfl
@[simp] theorem State.modFunc_mctp (s : State) (k : Nat) (f : Func → Func) : (s.modFunc k f).mctp = s.mctp := rfl

@[simp] theorem State.modPort_cycle (s : State) (k : Nat) (f : Port → Port) : (s.modPort k f).cycle = s.cycle := rfl
@[simp] theorem State.modPort_agenda (s : State) (k : Nat) (f : Port → Port) : (s.modPort k f).agenda = s.agenda := rfl
@[simp] theorem State.modPort_cur (s : State) (k : Nat) (f : Port → Port) : (s.modPort k f).cur = s.cur := rfl
@[simp] theorem State.modPort_bun (s : State) (k : Nat) (f : Port → Port) : (s.modPort k f).bun = s.bun := rfl
@[simp] theorem State.modPort_blen (s : State) (k : Nat) (f : Port → Port) : (s.modPort k f).blen = s.blen := rfl
@[simp] theorem State.modPort_arg (s : State) (k : Nat) (f : Port → Port) : (s.modPort k f).arg = s.arg := rfl
@[simp] theorem State.modPort_freeCount (s : State) (k : Nat) (f : Port → Port) : (s.modPort k f).freeCount = s.freeCount := rfl
@[simp] theorem State.modPort_nextId (s : State) (k : Nat) (f : Port → Port) : (s.modPort k f).nextId = s.nextId := rfl
@[simp] theorem State.modPort_mem (s : State) (k : Nat) (f : Port → Port) : (s.modPort k f).mem = s.mem := rfl
@[simp] theorem State.modPort_tags (s : State) (k : Nat) (f : Port → Port) : (s.modPort k f).tags = s.tags := rfl
@[simp] theorem State.modPort_poison (s : State) (k : Nat) (f : Port → Port) : (s.modPort k f).poison = s.poison := rfl
@[simp] theorem State.modPort_ctxs (s : State) (k : Nat) (f : Port → Port) : (s.modPort k f).ctxs = s.ctxs := rfl
@[simp] theorem State.modPort_cores (s : State) (k : Nat) (f : Port → Port) : (s.modPort k f).cores = s.cores := rfl
@[simp] theorem State.modPort_clusters (s : State) (k : Nat) (f : Port → Port) : (s.modPort k f).clusters = s.clusters := rfl
@[simp] theorem State.modPort_slices (s : State) (k : Nat) (f : Port → Port) : (s.modPort k f).slices = s.slices := rfl
@[simp] theorem State.modPort_dies (s : State) (k : Nat) (f : Port → Port) : (s.modPort k f).dies = s.dies := rfl
@[simp] theorem State.modPort_accs (s : State) (k : Nat) (f : Port → Port) : (s.modPort k f).accs = s.accs := rfl
@[simp] theorem State.modPort_net (s : State) (k : Nat) (f : Port → Port) : (s.modPort k f).net = s.net := rfl
@[simp] theorem State.modPort_parts (s : State) (k : Nat) (f : Port → Port) : (s.modPort k f).parts = s.parts := rfl
@[simp] theorem State.modPort_funcs (s : State) (k : Nat) (f : Port → Port) : (s.modPort k f).funcs = s.funcs := rfl
@[simp] theorem State.modPort_pf (s : State) (k : Nat) (f : Port → Port) : (s.modPort k f).pf = s.pf := rfl
@[simp] theorem State.modPort_assay (s : State) (k : Nat) (f : Port → Port) : (s.modPort k f).assay = s.assay := rfl
@[simp] theorem State.modPort_hostMem (s : State) (k : Nat) (f : Port → Port) : (s.modPort k f).hostMem = s.hostMem := rfl
@[simp] theorem State.modPort_hostReads (s : State) (k : Nat) (f : Port → Port) : (s.modPort k f).hostReads = s.hostReads := rfl
@[simp] theorem State.modPort_msix (s : State) (k : Nat) (f : Port → Port) : (s.modPort k f).msix = s.msix := rfl
@[simp] theorem State.modPort_mctp (s : State) (k : Nat) (f : Port → Port) : (s.modPort k f).mctp = s.mctp := rfl

@[simp] theorem State.setTag_cycle (s : State) (k v : Nat) : (s.setTag k v).cycle = s.cycle := rfl
@[simp] theorem State.setTag_agenda (s : State) (k v : Nat) : (s.setTag k v).agenda = s.agenda := rfl
@[simp] theorem State.setTag_cur (s : State) (k v : Nat) : (s.setTag k v).cur = s.cur := rfl
@[simp] theorem State.setTag_bun (s : State) (k v : Nat) : (s.setTag k v).bun = s.bun := rfl
@[simp] theorem State.setTag_blen (s : State) (k v : Nat) : (s.setTag k v).blen = s.blen := rfl
@[simp] theorem State.setTag_arg (s : State) (k v : Nat) : (s.setTag k v).arg = s.arg := rfl
@[simp] theorem State.setTag_freeCount (s : State) (k v : Nat) : (s.setTag k v).freeCount = s.freeCount := rfl
@[simp] theorem State.setTag_nextId (s : State) (k v : Nat) : (s.setTag k v).nextId = s.nextId := rfl
@[simp] theorem State.setTag_mem (s : State) (k v : Nat) : (s.setTag k v).mem = s.mem := rfl
@[simp] theorem State.setTag_poison (s : State) (k v : Nat) : (s.setTag k v).poison = s.poison := rfl
@[simp] theorem State.setTag_ctxs (s : State) (k v : Nat) : (s.setTag k v).ctxs = s.ctxs := rfl
@[simp] theorem State.setTag_cores (s : State) (k v : Nat) : (s.setTag k v).cores = s.cores := rfl
@[simp] theorem State.setTag_clusters (s : State) (k v : Nat) : (s.setTag k v).clusters = s.clusters := rfl
@[simp] theorem State.setTag_slices (s : State) (k v : Nat) : (s.setTag k v).slices = s.slices := rfl
@[simp] theorem State.setTag_dies (s : State) (k v : Nat) : (s.setTag k v).dies = s.dies := rfl
@[simp] theorem State.setTag_accs (s : State) (k v : Nat) : (s.setTag k v).accs = s.accs := rfl
@[simp] theorem State.setTag_net (s : State) (k v : Nat) : (s.setTag k v).net = s.net := rfl
@[simp] theorem State.setTag_parts (s : State) (k v : Nat) : (s.setTag k v).parts = s.parts := rfl
@[simp] theorem State.setTag_funcs (s : State) (k v : Nat) : (s.setTag k v).funcs = s.funcs := rfl
@[simp] theorem State.setTag_pf (s : State) (k v : Nat) : (s.setTag k v).pf = s.pf := rfl
@[simp] theorem State.setTag_ports (s : State) (k v : Nat) : (s.setTag k v).ports = s.ports := rfl
@[simp] theorem State.setTag_assay (s : State) (k v : Nat) : (s.setTag k v).assay = s.assay := rfl
@[simp] theorem State.setTag_hostMem (s : State) (k v : Nat) : (s.setTag k v).hostMem = s.hostMem := rfl
@[simp] theorem State.setTag_hostReads (s : State) (k v : Nat) : (s.setTag k v).hostReads = s.hostReads := rfl
@[simp] theorem State.setTag_msix (s : State) (k v : Nat) : (s.setTag k v).msix = s.msix := rfl
@[simp] theorem State.setTag_mctp (s : State) (k v : Nat) : (s.setTag k v).mctp = s.mctp := rfl

@[simp] theorem State.post_cycle (s : State) (d : Nat) (ev : Instr) (who what val : Nat) (ext : EvExt) : (s.post d ev who what val ext).cycle = s.cycle := rfl
@[simp] theorem State.post_cur (s : State) (d : Nat) (ev : Instr) (who what val : Nat) (ext : EvExt) : (s.post d ev who what val ext).cur = s.cur := rfl
@[simp] theorem State.post_bun (s : State) (d : Nat) (ev : Instr) (who what val : Nat) (ext : EvExt) : (s.post d ev who what val ext).bun = s.bun := rfl
@[simp] theorem State.post_blen (s : State) (d : Nat) (ev : Instr) (who what val : Nat) (ext : EvExt) : (s.post d ev who what val ext).blen = s.blen := rfl
@[simp] theorem State.post_arg (s : State) (d : Nat) (ev : Instr) (who what val : Nat) (ext : EvExt) : (s.post d ev who what val ext).arg = s.arg := rfl
@[simp] theorem State.post_freeCount (s : State) (d : Nat) (ev : Instr) (who what val : Nat) (ext : EvExt) : (s.post d ev who what val ext).freeCount = s.freeCount := rfl
@[simp] theorem State.post_nextId (s : State) (d : Nat) (ev : Instr) (who what val : Nat) (ext : EvExt) : (s.post d ev who what val ext).nextId = s.nextId := rfl
@[simp] theorem State.post_mem (s : State) (d : Nat) (ev : Instr) (who what val : Nat) (ext : EvExt) : (s.post d ev who what val ext).mem = s.mem := rfl
@[simp] theorem State.post_tags (s : State) (d : Nat) (ev : Instr) (who what val : Nat) (ext : EvExt) : (s.post d ev who what val ext).tags = s.tags := rfl
@[simp] theorem State.post_poison (s : State) (d : Nat) (ev : Instr) (who what val : Nat) (ext : EvExt) : (s.post d ev who what val ext).poison = s.poison := rfl
@[simp] theorem State.post_ctxs (s : State) (d : Nat) (ev : Instr) (who what val : Nat) (ext : EvExt) : (s.post d ev who what val ext).ctxs = s.ctxs := rfl
@[simp] theorem State.post_cores (s : State) (d : Nat) (ev : Instr) (who what val : Nat) (ext : EvExt) : (s.post d ev who what val ext).cores = s.cores := rfl
@[simp] theorem State.post_clusters (s : State) (d : Nat) (ev : Instr) (who what val : Nat) (ext : EvExt) : (s.post d ev who what val ext).clusters = s.clusters := rfl
@[simp] theorem State.post_slices (s : State) (d : Nat) (ev : Instr) (who what val : Nat) (ext : EvExt) : (s.post d ev who what val ext).slices = s.slices := rfl
@[simp] theorem State.post_dies (s : State) (d : Nat) (ev : Instr) (who what val : Nat) (ext : EvExt) : (s.post d ev who what val ext).dies = s.dies := rfl
@[simp] theorem State.post_accs (s : State) (d : Nat) (ev : Instr) (who what val : Nat) (ext : EvExt) : (s.post d ev who what val ext).accs = s.accs := rfl
@[simp] theorem State.post_net (s : State) (d : Nat) (ev : Instr) (who what val : Nat) (ext : EvExt) : (s.post d ev who what val ext).net = s.net := rfl
@[simp] theorem State.post_parts (s : State) (d : Nat) (ev : Instr) (who what val : Nat) (ext : EvExt) : (s.post d ev who what val ext).parts = s.parts := rfl
@[simp] theorem State.post_funcs (s : State) (d : Nat) (ev : Instr) (who what val : Nat) (ext : EvExt) : (s.post d ev who what val ext).funcs = s.funcs := rfl
@[simp] theorem State.post_pf (s : State) (d : Nat) (ev : Instr) (who what val : Nat) (ext : EvExt) : (s.post d ev who what val ext).pf = s.pf := rfl
@[simp] theorem State.post_ports (s : State) (d : Nat) (ev : Instr) (who what val : Nat) (ext : EvExt) : (s.post d ev who what val ext).ports = s.ports := rfl
@[simp] theorem State.post_assay (s : State) (d : Nat) (ev : Instr) (who what val : Nat) (ext : EvExt) : (s.post d ev who what val ext).assay = s.assay := rfl
@[simp] theorem State.post_hostMem (s : State) (d : Nat) (ev : Instr) (who what val : Nat) (ext : EvExt) : (s.post d ev who what val ext).hostMem = s.hostMem := rfl
@[simp] theorem State.post_hostReads (s : State) (d : Nat) (ev : Instr) (who what val : Nat) (ext : EvExt) : (s.post d ev who what val ext).hostReads = s.hostReads := rfl
@[simp] theorem State.post_msix (s : State) (d : Nat) (ev : Instr) (who what val : Nat) (ext : EvExt) : (s.post d ev who what val ext).msix = s.msix := rfl
@[simp] theorem State.post_mctp (s : State) (d : Nat) (ev : Instr) (who what val : Nat) (ext : EvExt) : (s.post d ev who what val ext).mctp = s.mctp := rfl

@[simp] theorem State.unpost_cycle (s : State) (ev : Instr) (who what : Nat) : (s.unpost ev who what).cycle = s.cycle := rfl
@[simp] theorem State.unpost_cur (s : State) (ev : Instr) (who what : Nat) : (s.unpost ev who what).cur = s.cur := rfl
@[simp] theorem State.unpost_bun (s : State) (ev : Instr) (who what : Nat) : (s.unpost ev who what).bun = s.bun := rfl
@[simp] theorem State.unpost_blen (s : State) (ev : Instr) (who what : Nat) : (s.unpost ev who what).blen = s.blen := rfl
@[simp] theorem State.unpost_arg (s : State) (ev : Instr) (who what : Nat) : (s.unpost ev who what).arg = s.arg := rfl
@[simp] theorem State.unpost_freeCount (s : State) (ev : Instr) (who what : Nat) : (s.unpost ev who what).freeCount = s.freeCount := rfl
@[simp] theorem State.unpost_nextId (s : State) (ev : Instr) (who what : Nat) : (s.unpost ev who what).nextId = s.nextId := rfl
@[simp] theorem State.unpost_mem (s : State) (ev : Instr) (who what : Nat) : (s.unpost ev who what).mem = s.mem := rfl
@[simp] theorem State.unpost_tags (s : State) (ev : Instr) (who what : Nat) : (s.unpost ev who what).tags = s.tags := rfl
@[simp] theorem State.unpost_poison (s : State) (ev : Instr) (who what : Nat) : (s.unpost ev who what).poison = s.poison := rfl
@[simp] theorem State.unpost_ctxs (s : State) (ev : Instr) (who what : Nat) : (s.unpost ev who what).ctxs = s.ctxs := rfl
@[simp] theorem State.unpost_cores (s : State) (ev : Instr) (who what : Nat) : (s.unpost ev who what).cores = s.cores := rfl
@[simp] theorem State.unpost_clusters (s : State) (ev : Instr) (who what : Nat) : (s.unpost ev who what).clusters = s.clusters := rfl
@[simp] theorem State.unpost_slices (s : State) (ev : Instr) (who what : Nat) : (s.unpost ev who what).slices = s.slices := rfl
@[simp] theorem State.unpost_dies (s : State) (ev : Instr) (who what : Nat) : (s.unpost ev who what).dies = s.dies := rfl
@[simp] theorem State.unpost_accs (s : State) (ev : Instr) (who what : Nat) : (s.unpost ev who what).accs = s.accs := rfl
@[simp] theorem State.unpost_net (s : State) (ev : Instr) (who what : Nat) : (s.unpost ev who what).net = s.net := rfl
@[simp] theorem State.unpost_parts (s : State) (ev : Instr) (who what : Nat) : (s.unpost ev who what).parts = s.parts := rfl
@[simp] theorem State.unpost_funcs (s : State) (ev : Instr) (who what : Nat) : (s.unpost ev who what).funcs = s.funcs := rfl
@[simp] theorem State.unpost_pf (s : State) (ev : Instr) (who what : Nat) : (s.unpost ev who what).pf = s.pf := rfl
@[simp] theorem State.unpost_ports (s : State) (ev : Instr) (who what : Nat) : (s.unpost ev who what).ports = s.ports := rfl
@[simp] theorem State.unpost_assay (s : State) (ev : Instr) (who what : Nat) : (s.unpost ev who what).assay = s.assay := rfl
@[simp] theorem State.unpost_hostMem (s : State) (ev : Instr) (who what : Nat) : (s.unpost ev who what).hostMem = s.hostMem := rfl
@[simp] theorem State.unpost_hostReads (s : State) (ev : Instr) (who what : Nat) : (s.unpost ev who what).hostReads = s.hostReads := rfl
@[simp] theorem State.unpost_msix (s : State) (ev : Instr) (who what : Nat) : (s.unpost ev who what).msix = s.msix := rfl
@[simp] theorem State.unpost_mctp (s : State) (ev : Instr) (who what : Nat) : (s.unpost ev who what).mctp = s.mctp := rfl

@[simp] theorem State.mapSlices_cycle (s : State) (die : Nat) (f : Slice → Slice) : (s.mapSlices die f).cycle = s.cycle := rfl
@[simp] theorem State.mapSlices_agenda (s : State) (die : Nat) (f : Slice → Slice) : (s.mapSlices die f).agenda = s.agenda := rfl
@[simp] theorem State.mapSlices_cur (s : State) (die : Nat) (f : Slice → Slice) : (s.mapSlices die f).cur = s.cur := rfl
@[simp] theorem State.mapSlices_bun (s : State) (die : Nat) (f : Slice → Slice) : (s.mapSlices die f).bun = s.bun := rfl
@[simp] theorem State.mapSlices_blen (s : State) (die : Nat) (f : Slice → Slice) : (s.mapSlices die f).blen = s.blen := rfl
@[simp] theorem State.mapSlices_arg (s : State) (die : Nat) (f : Slice → Slice) : (s.mapSlices die f).arg = s.arg := rfl
@[simp] theorem State.mapSlices_freeCount (s : State) (die : Nat) (f : Slice → Slice) : (s.mapSlices die f).freeCount = s.freeCount := rfl
@[simp] theorem State.mapSlices_nextId (s : State) (die : Nat) (f : Slice → Slice) : (s.mapSlices die f).nextId = s.nextId := rfl
@[simp] theorem State.mapSlices_mem (s : State) (die : Nat) (f : Slice → Slice) : (s.mapSlices die f).mem = s.mem := rfl
@[simp] theorem State.mapSlices_tags (s : State) (die : Nat) (f : Slice → Slice) : (s.mapSlices die f).tags = s.tags := rfl
@[simp] theorem State.mapSlices_poison (s : State) (die : Nat) (f : Slice → Slice) : (s.mapSlices die f).poison = s.poison := rfl
@[simp] theorem State.mapSlices_ctxs (s : State) (die : Nat) (f : Slice → Slice) : (s.mapSlices die f).ctxs = s.ctxs := rfl
@[simp] theorem State.mapSlices_cores (s : State) (die : Nat) (f : Slice → Slice) : (s.mapSlices die f).cores = s.cores := rfl
@[simp] theorem State.mapSlices_clusters (s : State) (die : Nat) (f : Slice → Slice) : (s.mapSlices die f).clusters = s.clusters := rfl
@[simp] theorem State.mapSlices_dies (s : State) (die : Nat) (f : Slice → Slice) : (s.mapSlices die f).dies = s.dies := rfl
@[simp] theorem State.mapSlices_accs (s : State) (die : Nat) (f : Slice → Slice) : (s.mapSlices die f).accs = s.accs := rfl
@[simp] theorem State.mapSlices_net (s : State) (die : Nat) (f : Slice → Slice) : (s.mapSlices die f).net = s.net := rfl
@[simp] theorem State.mapSlices_parts (s : State) (die : Nat) (f : Slice → Slice) : (s.mapSlices die f).parts = s.parts := rfl
@[simp] theorem State.mapSlices_funcs (s : State) (die : Nat) (f : Slice → Slice) : (s.mapSlices die f).funcs = s.funcs := rfl
@[simp] theorem State.mapSlices_pf (s : State) (die : Nat) (f : Slice → Slice) : (s.mapSlices die f).pf = s.pf := rfl
@[simp] theorem State.mapSlices_ports (s : State) (die : Nat) (f : Slice → Slice) : (s.mapSlices die f).ports = s.ports := rfl
@[simp] theorem State.mapSlices_assay (s : State) (die : Nat) (f : Slice → Slice) : (s.mapSlices die f).assay = s.assay := rfl
@[simp] theorem State.mapSlices_hostMem (s : State) (die : Nat) (f : Slice → Slice) : (s.mapSlices die f).hostMem = s.hostMem := rfl
@[simp] theorem State.mapSlices_hostReads (s : State) (die : Nat) (f : Slice → Slice) : (s.mapSlices die f).hostReads = s.hostReads := rfl
@[simp] theorem State.mapSlices_msix (s : State) (die : Nat) (f : Slice → Slice) : (s.mapSlices die f).msix = s.msix := rfl
@[simp] theorem State.mapSlices_mctp (s : State) (die : Nat) (f : Slice → Slice) : (s.mapSlices die f).mctp = s.mctp := rfl

@[simp] theorem State.mapAccs_cycle (s : State) (f : Access → Access) : (s.mapAccs f).cycle = s.cycle := rfl
@[simp] theorem State.mapAccs_agenda (s : State) (f : Access → Access) : (s.mapAccs f).agenda = s.agenda := rfl
@[simp] theorem State.mapAccs_cur (s : State) (f : Access → Access) : (s.mapAccs f).cur = s.cur := rfl
@[simp] theorem State.mapAccs_bun (s : State) (f : Access → Access) : (s.mapAccs f).bun = s.bun := rfl
@[simp] theorem State.mapAccs_blen (s : State) (f : Access → Access) : (s.mapAccs f).blen = s.blen := rfl
@[simp] theorem State.mapAccs_arg (s : State) (f : Access → Access) : (s.mapAccs f).arg = s.arg := rfl
@[simp] theorem State.mapAccs_freeCount (s : State) (f : Access → Access) : (s.mapAccs f).freeCount = s.freeCount := rfl
@[simp] theorem State.mapAccs_nextId (s : State) (f : Access → Access) : (s.mapAccs f).nextId = s.nextId := rfl
@[simp] theorem State.mapAccs_mem (s : State) (f : Access → Access) : (s.mapAccs f).mem = s.mem := rfl
@[simp] theorem State.mapAccs_tags (s : State) (f : Access → Access) : (s.mapAccs f).tags = s.tags := rfl
@[simp] theorem State.mapAccs_poison (s : State) (f : Access → Access) : (s.mapAccs f).poison = s.poison := rfl
@[simp] theorem State.mapAccs_ctxs (s : State) (f : Access → Access) : (s.mapAccs f).ctxs = s.ctxs := rfl
@[simp] theorem State.mapAccs_cores (s : State) (f : Access → Access) : (s.mapAccs f).cores = s.cores := rfl
@[simp] theorem State.mapAccs_clusters (s : State) (f : Access → Access) : (s.mapAccs f).clusters = s.clusters := rfl
@[simp] theorem State.mapAccs_slices (s : State) (f : Access → Access) : (s.mapAccs f).slices = s.slices := rfl
@[simp] theorem State.mapAccs_dies (s : State) (f : Access → Access) : (s.mapAccs f).dies = s.dies := rfl
@[simp] theorem State.mapAccs_net (s : State) (f : Access → Access) : (s.mapAccs f).net = s.net := rfl
@[simp] theorem State.mapAccs_parts (s : State) (f : Access → Access) : (s.mapAccs f).parts = s.parts := rfl
@[simp] theorem State.mapAccs_funcs (s : State) (f : Access → Access) : (s.mapAccs f).funcs = s.funcs := rfl
@[simp] theorem State.mapAccs_pf (s : State) (f : Access → Access) : (s.mapAccs f).pf = s.pf := rfl
@[simp] theorem State.mapAccs_ports (s : State) (f : Access → Access) : (s.mapAccs f).ports = s.ports := rfl
@[simp] theorem State.mapAccs_assay (s : State) (f : Access → Access) : (s.mapAccs f).assay = s.assay := rfl
@[simp] theorem State.mapAccs_hostMem (s : State) (f : Access → Access) : (s.mapAccs f).hostMem = s.hostMem := rfl
@[simp] theorem State.mapAccs_hostReads (s : State) (f : Access → Access) : (s.mapAccs f).hostReads = s.hostReads := rfl
@[simp] theorem State.mapAccs_msix (s : State) (f : Access → Access) : (s.mapAccs f).msix = s.msix := rfl
@[simp] theorem State.mapAccs_mctp (s : State) (f : Access → Access) : (s.mapAccs f).mctp = s.mctp := rfl

end Sys2Proof.Machine
end

