-- ==== Sys2Proof/Laws/Store.lean ====
section
/-!
SUPPORT. The tables, the memory and the registers: what a read finds after a write, and that writes keep the canonical form.
-/
namespace Sys2Proof.Machine

@[simp] theorem mapGet_nil {α : Type} (k : Nat) : mapGet ([] : Map α) k = none := rfl

theorem mapGet_mapSet {α : Type} (m : Map α) (k : Nat) (v : α) (j : Nat) :
    mapGet (mapSet m k v) j = if k = j then some v else mapGet m j := by
  induction m with
  | nil => simp [mapSet, mapGet]
  | cons x m ih =>
    obtain ⟨i, w⟩ := x
    simp only [mapSet]
    split
    · rename_i h
      simp only [mapGet]
    · split
      · rename_i h1 h2
        subst h2
        simp only [mapGet]
        split <;> rfl
      · rename_i h1 h2
        simp only [mapGet, ih]
        split
        · rename_i h3
          rw [if_neg]; omega
        · rfl

@[simp] theorem mapGet_mapSet_same {α : Type} (m : Map α) (k : Nat) (v : α) : mapGet (mapSet m k v) k = some v := by
  simp [mapGet_mapSet]

theorem mapGet_mapSet_ne {α : Type} (m : Map α) {k j : Nat} (v : α) (h : j ≠ k) : mapGet (mapSet m k v) j = mapGet m j := by
  rw [mapGet_mapSet, if_neg (Ne.symm h)]

/-! Contexts, cores and the other tables of the state. -/

@[simp] theorem State.ctx_setCtx (s : State) (g : Nat) (c : Ctx) : (s.setCtx g c).ctx g = c := by
  simp [State.ctx, State.setCtx]

theorem State.ctx_setCtx_ne (s : State) {g h : Nat} (c : Ctx) (n : h ≠ g) : (s.setCtx g c).ctx h = s.ctx h := by
  simp [State.ctx, State.setCtx, mapGet_mapSet_ne _ _ n]

@[simp] theorem State.ctx_modCtx (s : State) (g : Nat) (f : Ctx → Ctx) : (s.modCtx g f).ctx g = f (s.ctx g) := by
  simp [State.modCtx]

theorem State.ctx_modCtx_ne (s : State) {g h : Nat} (f : Ctx → Ctx) (n : h ≠ g) : (s.modCtx g f).ctx h = s.ctx h :=
  s.ctx_setCtx_ne _ n

/-- The contexts are read from one table. -/
theorem State.ctx_of_ctxs {s t : State} (h : t.ctxs = s.ctxs) (g : Nat) : t.ctx g = s.ctx g := by
  simp [State.ctx, h]

@[simp] theorem State.core_setCore (s : State) (k : Nat) (c : Core) : (s.setCore k c).core k = c := by
  simp [State.core, State.setCore]

@[simp] theorem State.core_modCore (s : State) (k : Nat) (f : Core → Core) : (s.modCore k f).core k = f (s.core k) := by
  simp [State.modCore]

/-- The cores are read from one table. -/
theorem State.core_of_cores {s t : State} (h : t.cores = s.cores) (k : Nat) : t.core k = s.core k := by
  simp [State.core, h]

@[simp] theorem State.ctx_post (s : State) (d : Nat) (ev : Instr) (who what val : Nat) (ext : EvExt) (g : Nat) :
    (s.post d ev who what val ext).ctx g = s.ctx g := rfl

@[simp] theorem State.core_post (s : State) (d : Nat) (ev : Instr) (who what val : Nat) (ext : EvExt) (k : Nat) :
    (s.post d ev who what val ext).core k = s.core k := rfl

@[simp] theorem State.core_setCtx (s : State) (g : Nat) (c : Ctx) (k : Nat) : (s.setCtx g c).core k = s.core k := rfl

@[simp] theorem State.ctx_setCore (s : State) (k : Nat) (c : Core) (g : Nat) : (s.setCore k c).ctx g = s.ctx g := rfl

/-! Memory. -/

theorem memGet_memSet (m : List Host.Cell) (k : Nat) (b : Byte) (j : Nat) (lo : Nat) (w : rising lo m = true) :
    memGet (memSet m k b) j = if k = j then b else memGet m j := by
  induction m generalizing lo with
  | nil =>
    simp only [memSet]
    split
    · rename_i h; simp [memGet, h]
    · simp [memGet]
  | cons x m ih =>
    obtain ⟨i, c⟩ := x
    simp only [rising, Bool.and_eq_true, decide_eq_true_eq] at w
    have low : ∀ l (n : List Host.Cell) q, rising l n = true → q < l → memGet n q = 0 := by
      intro l n q
      induction n generalizing l with
      | nil => intros; rfl
      | cons y n ih2 =>
        obtain ⟨a, d⟩ := y
        intro h1 h2
        simp only [rising, Bool.and_eq_true, decide_eq_true_eq] at h1
        simp only [memGet]
        rw [if_neg (by omega)]
        exact ih2 _ h1.2 (by omega)
    simp only [memSet]
    split
    · rename_i h
      split
      · rename_i hb
        simp only [memGet]
        by_cases e : k = j
        · subst e; rw [if_neg (by omega), if_pos rfl, hb]; exact low _ _ _ w.2 (by omega)
        · simp [e]
      · simp only [memGet]
    · split
      · rename_i h1 h2
        subst h2
        split
        · rename_i hb
          simp only [memGet]
          by_cases e : i = j
          · subst e; simp [hb]; exact low _ _ _ w.2 (by omega)
          · simp [e]
        · simp only [memGet]
          split <;> rfl
      · rename_i h1 h2
        simp only [memGet, ih _ w.2]
        by_cases e : i = j
        · subst e; simp; omega
        · simp [e]

theorem memSet_rising (m : List Host.Cell) (k : Nat) (b : Byte) (lo : Nat) (h : lo ≤ k) (w : rising lo m = true) :
    rising lo (memSet m k b) = true := by
  induction m generalizing lo with
  | nil =>
    simp only [memSet]
    split <;> simp [rising, h]
  | cons x m ih =>
    obtain ⟨i, c⟩ := x
    simp only [rising, Bool.and_eq_true, decide_eq_true_eq] at w
    have up : ∀ (n : List Host.Cell) l q, q ≤ l → rising l n = true → rising q n = true := by
      intro n
      cases n with
      | nil => intros; rfl
      | cons y n =>
        obtain ⟨a, d⟩ := y
        intro l q hq hr
        simp only [rising, Bool.and_eq_true, decide_eq_true_eq] at hr ⊢
        exact ⟨by omega, hr.2⟩
    simp only [memSet]
    split
    · split
      · simp [rising, w]
      · simp only [rising, Bool.and_eq_true, decide_eq_true_eq]
        exact ⟨h, by omega, w.2⟩
    · split
      · split
        · exact up _ _ _ (by omega) w.2
        · rename_i e _
          simp only [rising, Bool.and_eq_true, decide_eq_true_eq]
          exact ⟨h, e ▸ w.2⟩
      · simp only [rising, Bool.and_eq_true, decide_eq_true_eq]
        exact ⟨w.1, ih _ (by omega) w.2⟩

theorem memSet_nonzero (m : List Host.Cell) (k : Nat) (b : Byte) (w : m.all (fun c => c.2 != 0) = true) :
    (memSet m k b).all (fun c => c.2 != 0) = true := by
  induction m with
  | nil =>
    simp only [memSet]
    split
    · rfl
    · rename_i h; simpa using h
  | cons x m ih =>
    obtain ⟨i, c⟩ := x
    have w' := w
    simp only [List.all_cons, Bool.and_eq_true] at w
    simp only [memSet]
    split
    · split
      · exact w'
      · rename_i h
        simp only [List.all_cons, Bool.and_eq_true]
        exact ⟨by simpa using h, w⟩
    · split
      · split
        · exact w.2
        · rename_i h
          simp only [List.all_cons, Bool.and_eq_true]
          exact ⟨by simpa using h, w.2⟩
      · simp only [List.all_cons, Bool.and_eq_true]
        exact ⟨w.1, ih w.2⟩

/-- A byte written keeps the canonical form. -/
theorem memSet_wf (m : List Host.Cell) (k : Nat) (b : Byte) (w : memWf m) : memWf (memSet m k b) :=
  ⟨memSet_rising m k b 0 (Nat.zero_le _) w.1, memSet_nonzero m k b w.2⟩

/-- Bytes written keep the canonical form. -/
theorem memWrite_wf (bs : List Byte) (m : List Host.Cell) (k : Nat) (w : memWf m) : memWf (memWrite m k bs) := by
  induction bs generalizing m k with
  | nil => exact w
  | cons b bs ih => exact ih _ _ (memSet_wf m k b w)

/-- A byte read after bytes are written: the byte written there, or the byte that stood there. -/
theorem memGet_memWrite (bs : List Byte) (m : List Host.Cell) (k j : Nat) (w : memWf m) :
    memGet (memWrite m k bs) j = if k ≤ j ∧ j < k + bs.length then bs.getD (j - k) 0 else memGet m j := by
  induction bs generalizing m k with
  | nil => rw [if_neg (by simp only [List.length_nil]; omega)]; rfl
  | cons b bs ih =>
    simp only [memWrite, ih _ _ (memSet_wf m k b w), memGet_memSet m k b j 0 w.1, List.length_cons]
    by_cases e : k = j
    · subst e
      rw [if_neg (by omega), if_pos rfl, if_pos (by omega)]
      simp
    · rw [if_neg e]
      by_cases h : k + 1 ≤ j ∧ j < k + 1 + bs.length
      · rw [if_pos h, if_pos (by omega)]
        obtain ⟨i, hi⟩ : ∃ i, j - k = i + 1 := ⟨j - k - 1, by omega⟩
        rw [hi, List.getD_cons_succ]
        congr 1
        omega
      · rw [if_neg h, if_neg (by omega)]

/-! Registers. -/

theorem Ctx.setReg_s (c : Ctx) (w : RegWrite) (r : SReg) : (c.setReg w).getS r =
    if r = 0 then 0 else if w.reg = .s r then BitVec.ofNat 64 w.val else c.getS r := by
  obtain ⟨reg, v⟩ := w
  cases reg with
  | s q =>
    simp only [Ctx.setReg, Ctx.getS]
    by_cases hr : r = 0
    · simp [hr]
    · by_cases hq : q = 0
      · subst hq
        have : ¬ (RegName.s 0 = RegName.s r) := fun e => hr (by injection e with e; exact e.symm)
        simp [hr, this]
      · by_cases e : q = r
        · subst e; simp [hr]
        · have n : ¬ (q.val = r.val) := fun x => e (Fin.ext x)
          simp [hr, hq, e, n]
  | v q => by_cases hr : r = 0 <;> simp [Ctx.setReg, Ctx.getS, hr]
  | m q => by_cases hr : r = 0 <;> by_cases hq : q = 0 <;> simp [Ctx.setReg, Ctx.getS, hr, hq]

theorem Ctx.setReg_v (c : Ctx) (w : RegWrite) (r : VReg) : (c.setReg w).getV r =
    if w.reg = .v r then BitVec.ofNat 512 w.val else c.getV r := by
  obtain ⟨reg, v⟩ := w
  cases reg with
  | s q => simp only [Ctx.setReg, Ctx.getV]; split <;> simp
  | v q =>
    simp only [Ctx.setReg, Ctx.getV]
    by_cases e : q = r
    · subst e; simp
    · have n : ¬ (q.val = r.val) := fun x => e (Fin.ext x)
      simp [e, n]
  | m q => simp only [Ctx.setReg, Ctx.getV]; split <;> simp

theorem Ctx.setReg_m (c : Ctx) (w : RegWrite) (r : MReg) : (c.setReg w).getM r =
    if r = 0 then BitVec.allOnes 64 else if w.reg = .m r then BitVec.ofNat 64 w.val else c.getM r := by
  obtain ⟨reg, v⟩ := w
  cases reg with
  | s q => by_cases hr : r = 0 <;> by_cases hq : q = 0 <;> simp [Ctx.setReg, Ctx.getM, hr, hq]
  | v q => by_cases hr : r = 0 <;> simp [Ctx.setReg, Ctx.getM, hr]
  | m q =>
    simp only [Ctx.setReg, Ctx.getM]
    by_cases hr : r = 0
    · simp [hr]
    · by_cases hq : q = 0
      · subst hq
        have : ¬ (RegName.m 0 = RegName.m r) := fun e => hr (by injection e with e; exact e.symm)
        simp [hr, this]
      · by_cases e : q = r
        · subst e; simp [hr]
        · have n : ¬ (q.val = r.val) := fun x => e (Fin.ext x)
          simp [hr, hq, e, n]

end Sys2Proof.Machine
end

