-- ==== Sys2Proof/Laws/Ops.lean ====
section
/-!
SUPPORT. What the shared operations of issue and retirement do: each lemma says once all that callers need.
-/
namespace Sys2Proof.Machine

/-! Registers after writes. -/

/-- Writes in order leave in each register the last value written to it. -/
theorem Ctx.setRegs_after (ws : List RegWrite) (c : Ctx) : RegsAfter c (c.setRegs ws) ws := by
  have key : ∀ (ws : List RegWrite) (c d : Ctx) (pre : List RegWrite), RegsAfter c d pre →
      RegsAfter c (ws.foldl Ctx.setReg d) (pre ++ ws) := by
    intro ws
    induction ws with
    | nil => intro c d pre h; simpa using h
    | cons w ws ih =>
      intro c d pre h
      have h2 : RegsAfter c (d.setReg w) (pre ++ [w]) := by
        refine ⟨fun r => ?_, fun r => ?_, fun r => ?_⟩
        · rw [Ctx.setReg_s, h.scalar r]
          simp only [writtenTo, List.foldl_append, List.foldl_cons, List.foldl_nil]
          by_cases hr : r = 0
          · simp [hr]
          · by_cases e : w.reg = .s r <;> simp [hr, e]
        · rw [Ctx.setReg_v, h.vector r]
          simp only [writtenTo, List.foldl_append, List.foldl_cons, List.foldl_nil]
          by_cases e : w.reg = .v r <;> simp [e]
        · rw [Ctx.setReg_m, h.mask r]
          simp only [writtenTo, List.foldl_append, List.foldl_cons, List.foldl_nil]
          by_cases hr : r = 0
          · simp [hr]
          · by_cases e : w.reg = .m r <;> simp [hr, e]
      have := ih c (d.setReg w) (pre ++ [w]) h2
      simpa using this
  have base : RegsAfter c c [] := by
    refine ⟨fun r => ?_, fun r => rfl, fun r => ?_⟩
    · by_cases hr : r = 0 <;> simp [Ctx.getS, hr, writtenTo]
    · by_cases hr : r = 0 <;> simp [Ctx.getM, hr, writtenTo]
  simpa [Ctx.setRegs] using key ws c c [] base

/-- Two contexts with the same register files agree on what was written. -/
theorem RegsAfter.of_files {c d e : Ctx} {ws : List RegWrite} (h : RegsAfter c d ws) (hs : e.s = d.s) (hv : e.v = d.v)
    (hm : e.m = d.m) : RegsAfter c e ws :=
  ⟨fun r => by rw [← h.scalar r]; simp [Ctx.getS, hs], fun r => by rw [← h.vector r]; simp [Ctx.getV, hv],
   fun r => by rw [← h.mask r]; simp [Ctx.getM, hm]⟩

/-- A register write changes the three files and nothing else of the context. -/
theorem Ctx.setReg_rest (w : RegWrite) (c : Ctx) :
    c.setReg w = { c with s := (c.setReg w).s, v := (c.setReg w).v, m := (c.setReg w).m } := by
  obtain ⟨reg, v⟩ := w
  cases reg <;> simp only [Ctx.setReg] <;> (try split) <;> rfl

/-- Register writes change the three files and nothing else of the context. -/
theorem Ctx.setRegs_rest (ws : List RegWrite) (c : Ctx) :
    c.setRegs ws = { c with s := (c.setRegs ws).s, v := (c.setRegs ws).v, m := (c.setRegs ws).m } := by
  unfold Ctx.setRegs
  induction ws generalizing c with
  | nil => rfl
  | cons w ws ih =>
    simp only [List.foldl_cons]
    rw [ih (c.setReg w), Ctx.setReg_rest w c]

/-! Pending registers. -/

/-- A bundle none of whose registers is pending passes the check of R187. -/
theorem Ctx.pendingTrap_none {c : Ctx} {rd wr : List RegName} (h : c.Clear (rd ++ wr)) : c.pendingTrap rd wr = none := by
  have hit : ∀ rs, (∀ r ∈ rs, r ∈ rd ++ wr) → c.pendHit rs = none := by
    intro rs hrs
    have : (rs.filter fun r => c.pend.any fun p => p.reg == r) = [] := by
      rw [List.filter_eq_nil_iff]
      intro r hr
      simp only [List.any_eq_true, not_exists, not_and]
      intro p hp e
      exact h p hp (by rw [eq_of_beq e]; exact hrs r hr)
    simp [Ctx.pendHit, this]
  simp [Ctx.pendingTrap, hit rd (fun r hr => List.mem_append_left _ hr), hit wr (fun r hr => List.mem_append_right _ hr)]

/-! The agenda. -/

/-- Putting the returns of an effect on the agenda changes nothing but the agenda. -/
theorem State.postResults_agenda (s : State) (g : Nat) (e : Effect) :
    s.postResults g e = { s with agenda := (s.postResults g e).agenda } := by
  unfold State.postResults
  generalize (e.later.map (·.1)).eraseDups = ls
  induction ls generalizing s with
  | nil => rfl
  | cons l ls ih =>
    simp only [List.foldl_cons]
    rw [ih]
    rfl

/-- An event put on the agenda once changes nothing but the agenda. -/
theorem State.postOnce_agenda (s : State) (d : Nat) (ev : Instr) (who what : Nat) :
    s.postOnce d ev who what = { s with agenda := (s.postOnce d ev who what).agenda } := by
  unfold State.postOnce
  split <;> rfl

/-- An event put on the agenda in place of a later one changes nothing but the agenda. -/
theorem State.postSoon_agenda (s : State) (d : Nat) (ev : Instr) (who what : Nat) :
    s.postSoon d ev who what = { s with agenda := (s.postSoon d ev who what).agenda } := by
  unfold State.postSoon
  simp only
  split <;> rfl

/-! Changes that a program does not see. -/

/-- Two records of a context agree in all that `Completed` speaks of. -/
structure SameView (c d : Ctx) : Prop where
  s      : d.s = c.s
  v      : d.v = c.v
  m      : d.m = c.m
  pend   : d.pend = c.pend
  pc     : d.pc = c.pc
  wcount : d.wcount = c.wcount
  touch  : d.touch = c.touch
  system : SameSystem c d

theorem SameSystem.refl (c : Ctx) : SameSystem c c := by constructor <;> rfl

theorem SameSystem.trans {a b c : Ctx} (h : SameSystem a b) (k : SameSystem b c) : SameSystem a c := by
  cases h; cases k; constructor <;> simp_all only

theorem SameView.refl (c : Ctx) : SameView c c := ⟨rfl, rfl, rfl, rfl, rfl, rfl, rfl, .refl c⟩

theorem SameView.trans {a b c : Ctx} (h : SameView a b) (k : SameView b c) : SameView a c :=
  ⟨k.s.trans h.s, k.v.trans h.v, k.m.trans h.m, k.pend.trans h.pend, k.pc.trans h.pc, k.wcount.trans h.wcount,
   k.touch.trans h.touch, h.system.trans k.system⟩

/-- t differs from u at most in the agenda and in what a program does not see of context g. -/
structure Quiet (g : Nat) (u t : State) : Prop where
  view     : SameView (u.ctx g) (t.ctx g)
  others   : ∀ h, h ≠ g → t.ctx h = u.ctx h
  mem      : t.mem = u.mem
  tags     : t.tags = u.tags
  poison   : t.poison = u.poison
  units    : SameUnits u t
  cur      : t.cur = u.cur
  cycle    : t.cycle = u.cycle

theorem SameUnits.refl (s : State) : SameUnits s s := by constructor <;> rfl

theorem SameUnits.trans {a b c : State} (h : SameUnits a b) (k : SameUnits b c) : SameUnits a c := by
  cases h; cases k; constructor <;> simp_all only

theorem Quiet.refl (g : Nat) (u : State) : Quiet g u u := ⟨.refl _, fun _ _ => rfl, rfl, rfl, rfl, .refl _, rfl, rfl⟩

theorem Quiet.trans {g : Nat} {a b c : State} (h : Quiet g a b) (k : Quiet g b c) : Quiet g a c :=
  ⟨h.view.trans k.view, fun x hx => (k.others x hx).trans (h.others x hx), k.mem.trans h.mem, k.tags.trans h.tags,
   k.poison.trans h.poison, h.units.trans k.units, k.cur.trans h.cur, k.cycle.trans h.cycle⟩

/-- A change of the agenda alone is quiet. -/
theorem Quiet.agenda (g : Nat) (u : State) (ag : List Due) : Quiet g u { u with agenda := ag } :=
  ⟨.refl _, fun _ _ => rfl, rfl, rfl, rfl, by constructor <;> rfl, rfl, rfl⟩

/-- A record replaced by one of the same view is quiet. -/
theorem Quiet.setCtx {g : Nat} {u : State} {c : Ctx} (h : SameView (u.ctx g) c) : Quiet g u (u.setCtx g c) :=
  ⟨by rw [State.ctx_setCtx]; exact h, fun x hx => u.ctx_setCtx_ne c hx, rfl, rfl, rfl, by constructor <;> rfl, rfl, rfl⟩

theorem Quiet.modCtx {g : Nat} {u : State} {f : Ctx → Ctx} (h : SameView (u.ctx g) (f (u.ctx g))) : Quiet g u (u.modCtx g f) :=
  Quiet.setCtx h

theorem Quiet.postOnce (g : Nat) (u : State) (d : Nat) (ev : Instr) (who what : Nat) : Quiet g u (u.postOnce d ev who what) := by
  rw [State.postOnce_agenda]; exact .agenda g u _

theorem Quiet.postSoon (g : Nat) (u : State) (d : Nat) (ev : Instr) (who what : Nat) : Quiet g u (u.postSoon d ev who what) := by
  rw [State.postSoon_agenda]; exact .agenda g u _

/-- A look for the next fill of a core's slots changes nothing that a program sees. -/
theorem Quiet.kick (g : Nat) (u : State) (core : Nat) : Quiet g u (u.kick core) := .postSoon ..

/-- A look for what a Ready context may take changes nothing that a program sees. -/
theorem Quiet.lookReady (g : Nat) (u : State) (core : Nat) : Quiet g u (u.lookReady core) := by
  unfold State.lookReady
  split
  · exact .refl ..
  · exact .kick ..

/-- A park changes nothing that a program sees. -/
theorem Quiet.park (g : Nat) (u : State) (w : Wait) : Quiet g u (u.park g w) := by
  unfold State.park
  have h : Quiet g u (u.setCtx g { u.ctx g with st := .parked, wait := w, parkedAt := u.cycle }) :=
    .setCtx ⟨rfl, rfl, rfl, rfl, rfl, rfl, rfl, by constructor <;> rfl⟩
  have post : ∀ a : State, Quiet g a (a.post 16 .watchdogExpiry g u.cycle) := fun a => .agenda g a _
  refine .trans (h.trans ?_) (.lookReady ..)
  split
  · exact post _
  · exact .refl ..

/-- What completes stays complete through quiet changes. -/
theorem Completed.quiet {s u t : State} {e : Effect} {next : Word} (h : Completed s u e next) (k : Quiet s.cur u t) :
    Completed s t e next :=
  ⟨h.regs.of_files k.view.s k.view.v k.view.m, k.view.pend.trans h.pend, k.view.pc.trans h.pc, k.view.wcount.trans h.wcount,
   k.view.touch.trans h.touch, h.system.trans k.view.system,
   ⟨fun a => by rw [k.mem]; exact h.memory.bytes a, k.tags.trans h.memory.tags, k.poison.trans h.memory.poison,
    fun g hg => (k.others g hg).trans (h.memory.others g hg)⟩, h.units.trans k.units⟩

/-! Retirement. -/

/-- The record of a context at the end of a bundle. -/
theorem Ctx.apply_view (c : Ctx) (e : Effect) (now : Nat) : RegsAfter c (c.apply e now) e.now ∧
    (c.apply e now).pend = c.pend ++ pendOf e now ∧ (c.apply e now).touch = c.touch ∧ SameSystem c (c.apply e now) := by
  have r := Ctx.setRegs_rest e.now c
  refine ⟨(Ctx.setRegs_after e.now c).of_files rfl rfl rfl, ?_, ?_, ?_⟩
  · simp only [Ctx.apply, pendOf]; rw [r]
  · simp only [Ctx.apply]; rw [r]
  · simp only [Ctx.apply]; rw [r]; constructor <;> rfl

theorem Ctx.countIssue_view (c : Ctx) (now : Nat) : SameView c (c.countIssue now) := by
  unfold Ctx.countIssue
  split
  · exact .refl c
  · exact ⟨rfl, rfl, rfl, rfl, rfl, rfl, rfl, by constructor <;> rfl⟩

/-- The replay queue is nothing that a program sees. -/
theorem Ctx.noteBundle_view (c : Ctx) (r : ReplayEntry) (ws : List RegWrite) : SameView c (c.noteBundle r ws) :=
  ⟨rfl, rfl, rfl, rfl, rfl, rfl, rfl, by constructor <;> rfl⟩

/-- What the end of a bundle leaves when no recorded cause is raised by it. -/
theorem State.finish_completed (s : State) (e : Effect) (next : Word) (m : Bool)
    (h : m = false ∨ (s.ctx s.cur).rcause = 0) : Completed s (s.finish s.cur e next m) e next := by
  obtain ⟨h1, h2, h3, h4⟩ := Ctx.apply_view (s.ctx s.cur) e s.cycle
  have hv := (Ctx.countIssue_view ((s.ctx s.cur).apply e s.cycle) s.cycle).trans
    (Ctx.noteBundle_view _ (s.capture s.cur) (e.now ++ e.later.map (·.2)))
  unfold State.finish State.complete
  simp only
  generalize hd : ({ (((s.ctx s.cur).apply e s.cycle).countIssue s.cycle).noteBundle (s.capture s.cur) (e.now ++ e.later.map (·.2)) with
      pc := next, latch := none, nofetch := [], wcount := 0, readyAt := s.cycle + 1 } : Ctx) = d
  have k1 : RegsAfter (s.ctx s.cur) d e.now := by subst hd; exact h1.of_files hv.s hv.v hv.m
  have k2 : d.pend = (s.ctx s.cur).pend ++ pendOf e s.cycle := by subst hd; exact hv.pend.trans h2
  have k3 : d.pc = next := by subst hd; rfl
  have k4 : d.wcount = 0 := by subst hd; rfl
  have k5 : d.touch = (s.ctx s.cur).touch := by subst hd; exact hv.touch.trans h3
  have k6 : SameSystem (s.ctx s.cur) d := by
    subst hd
    have := h4.trans hv.system
    cases this
    constructor <;> assumption
  have base : Completed s (s.setCtx s.cur d) e next := by
    refine ⟨?_, ?_, ?_, ?_, ?_, ?_, ⟨fun a => rfl, rfl, rfl, fun g hg => s.ctx_setCtx_ne d hg⟩, by constructor <;> rfl⟩ <;>
      rw [State.ctx_setCtx] <;> assumption
  have q : Quiet s.cur (s.setCtx s.cur d) (((s.setCtx s.cur d).postResults s.cur e).post 8 .fetch s.cur) := by
    rw [State.postResults_agenda]
    exact .agenda ..
  have full := base.quiet q
  have rc : ((((s.setCtx s.cur d).postResults s.cur e).post 8 .fetch s.cur).ctx s.cur).rcause = (s.ctx s.cur).rcause :=
    full.system.rcause
  cases m with
  | false => simpa using full
  | true =>
    have r0 : (s.ctx s.cur).rcause = 0 := by simpa using h
    simp only [Bool.not_true, Bool.false_eq_true, if_false]
    split
    · have : (((s.setCtx s.cur d).postResults s.cur e).post 8 .fetch s.cur).raiseRecorded s.cur =
          ((s.setCtx s.cur d).postResults s.cur e).post 8 .fetch s.cur := by
        simp only [State.raiseRecorded, State.raiseRecordedFrom]
        rw [if_pos (rc.trans r0)]
      rw [this]
      exact full
    · refine full.quiet (.trans (.modCtx ⟨rfl, rfl, rfl, rfl, rfl, rfl, rfl, by constructor <;> rfl⟩) (.park ..))

/-- What a bundle that completes in its turn leaves. -/
theorem State.retire_completed (s : State) (e : Effect) (h : s.Unmarked) : Completed s (s.retire e) e s.nextPc :=
  s.finish_completed e s.nextPc s.bun.marker h

/-! Issue. -/

/-- A lone arithmetic word whose registers are clear retires with its effect. -/
theorem State.issueA_ok (s : State) (i : Instr) (e : Effect) (h : s.ClearFor i) : s.issueA i (.ok e) = s.retire e := by
  simp only [State.issueA, Ctx.pendingTrap_none h]

/-- A lone arithmetic word whose registers are clear and that has a cause raises it. -/
theorem State.issueA_error (s : State) (i : Instr) (x : Trap) (h : s.ClearFor i) : s.issueA i (.error x) = s.raise x := by
  simp only [State.issueA, Ctx.pendingTrap_none h]

/-- A head whose bundle is clear, without causes, goes on with its tail's effect. -/
theorem State.issueC_ok (s : State) (i : Instr) (e : Effect) (k : Effect → State) (h : s.HeadReady i e) :
    s.issueC i none none k = k e := by
  simp only [State.issueC, State.issueLate, Ctx.pendingTrap_none h.1, h.2]

end Sys2Proof.Machine
end

