-- ==== Sys2Proof/Laws/PerInstr.lean ====
section
/-!
SUPPORT. Per-instruction laws of the syntax: an instruction has an encoding exactly when its opcode-table row has bits, and only such
an instruction is well formed.
-/
namespace Sys2Proof.Laws.HasEncoding

/-- An instruction encodes if and only if it has words, and a well-formed one has words. -/
def Statement (i : Instr) : Prop := (encInstr i).isSome = i.hasWord ∧ (i.wf = true → i.hasWord = true)

theorem nopc : Statement .nopc := ⟨rfl, fun _ => rfl⟩
theorem beq (a b : SReg) (off : Imm11) : Statement (.beq a b off) := ⟨rfl, fun _ => rfl⟩
theorem bne (a b : SReg) (off : Imm11) : Statement (.bne a b off) := ⟨rfl, fun _ => rfl⟩
theorem blt (a b : SReg) (off : Imm11) : Statement (.blt a b off) := ⟨rfl, fun _ => rfl⟩
theorem bge (a b : SReg) (off : Imm11) : Statement (.bge a b off) := ⟨rfl, fun _ => rfl⟩
theorem bltu (a b : SReg) (off : Imm11) : Statement (.bltu a b off) := ⟨rfl, fun _ => rfl⟩
theorem bgeu (a b : SReg) (off : Imm11) : Statement (.bgeu a b off) := ⟨rfl, fun _ => rfl⟩
theorem loop (a b : SReg) (off : Imm11) : Statement (.loop a b off) := ⟨rfl, fun _ => rfl⟩
theorem jmp (off : BitVec 21) : Statement (.jmp off) := ⟨rfl, fun _ => rfl⟩
theorem call (off : BitVec 21) : Statement (.call off) := ⟨rfl, fun _ => rfl⟩
theorem jr (a : SReg) (imm : Imm11) : Statement (.jr a imm) := ⟨rfl, fun _ => rfl⟩
theorem callr (a : SReg) (imm : Imm11) : Statement (.callr a imm) := ⟨rfl, fun _ => rfl⟩
theorem ldb (o : MArgs) : Statement (.ldb o) := ⟨rfl, fun _ => rfl⟩
theorem ldbu (o : MArgs) : Statement (.ldbu o) := ⟨rfl, fun _ => rfl⟩
theorem ldh (o : MArgs) : Statement (.ldh o) := ⟨rfl, fun _ => rfl⟩
theorem ldhu (o : MArgs) : Statement (.ldhu o) := ⟨rfl, fun _ => rfl⟩
theorem ldw (o : MArgs) : Statement (.ldw o) := ⟨rfl, fun _ => rfl⟩
theorem ldwu (o : MArgs) : Statement (.ldwu o) := ⟨rfl, fun _ => rfl⟩
theorem ldd (o : MArgs) : Statement (.ldd o) := ⟨rfl, fun _ => rfl⟩
theorem lda (o : ScArgs) : Statement (.lda o) := ⟨rfl, fun _ => rfl⟩
theorem stb (o : MArgs) : Statement (.stb o) := ⟨rfl, fun _ => rfl⟩
theorem sth (o : MArgs) : Statement (.sth o) := ⟨rfl, fun _ => rfl⟩
theorem stw (o : MArgs) : Statement (.stw o) := ⟨rfl, fun _ => rfl⟩
theorem std (o : MArgs) : Statement (.std o) := ⟨rfl, fun _ => rfl⟩
theorem stl (o : ScArgs) : Statement (.stl o) := ⟨rfl, fun _ => rfl⟩
theorem fence (sc : Scope) (zext : Bool) : Statement (.fence sc zext) := ⟨rfl, fun _ => rfl⟩
theorem l1inv (dat ins : Bool) (form : L1Form) : Statement (.l1inv dat ins form) := ⟨rfl, fun _ => rfl⟩
theorem vld (o : VMArgs) : Statement (.vld o) := ⟨rfl, fun _ => rfl⟩
theorem vst (o : VMArgs) : Statement (.vst o) := ⟨rfl, fun _ => rfl⟩
theorem vlds (o : StrideArgs) : Statement (.vlds o) := ⟨rfl, fun _ => rfl⟩
theorem vsts (o : StrideArgs) : Statement (.vsts o) := ⟨rfl, fun _ => rfl⟩
theorem gld (o : GMArgs) : Statement (.gld o) := ⟨rfl, fun _ => rfl⟩
theorem gst (o : GMArgs) : Statement (.gst o) := ⟨rfl, fun _ => rfl⟩
theorem oinit (o : OArgs) : Statement (.oinit o) := ⟨rfl, fun _ => rfl⟩
theorem ofree (o : OArgs) : Statement (.ofree o) := ⟨rfl, fun _ => rfl⟩
theorem oread (o : OArgs) : Statement (.oread o) := ⟨rfl, fun _ => rfl⟩
theorem cadd (o : OArgs) : Statement (.cadd o) := ⟨rfl, fun _ => rfl⟩
theorem cwait (o : OArgs) : Statement (.cwait o) := ⟨rfl, fun _ => rfl⟩
theorem cset (o : OArgs) : Statement (.cset o) := ⟨rfl, fun _ => rfl⟩
theorem barr (o : OArgs) : Statement (.barr o) := ⟨rfl, fun _ => rfl⟩
theorem bwait (o : OArgs) : Statement (.bwait o) := ⟨rfl, fun _ => rfl⟩
theorem barw (o : OArgs) : Statement (.barw o) := ⟨rfl, fun _ => rfl⟩
theorem ltake (o : OArgs) : Statement (.ltake o) := ⟨rfl, fun _ => rfl⟩
theorem lgive (o : OArgs) : Statement (.lgive o) := ⟨rfl, fun _ => rfl⟩
theorem qput (o : OArgs) : Statement (.qput o) := ⟨rfl, fun _ => rfl⟩
theorem qget (o : OArgs) : Statement (.qget o) := ⟨rfl, fun _ => rfl⟩
theorem kwait (o : OArgs) : Statement (.kwait o) := ⟨rfl, fun _ => rfl⟩
theorem ksig (o : OArgs) : Statement (.ksig o) := ⟨rfl, fun _ => rfl⟩
theorem kall (o : OArgs) : Statement (.kall o) := ⟨rfl, fun _ => rfl⟩
theorem feget (o : OArgs) : Statement (.feget o) := ⟨rfl, fun _ => rfl⟩
theorem feput (o : OArgs) : Statement (.feput o) := ⟨rfl, fun _ => rfl⟩
theorem fepeek (o : OArgs) : Statement (.fepeek o) := ⟨rfl, fun _ => rfl⟩
theorem aadd (o : AArgs) : Statement (.aadd o) := ⟨rfl, fun _ => rfl⟩
theorem aswap (o : AArgs) : Statement (.aswap o) := ⟨rfl, fun _ => rfl⟩
theorem acas (o : AArgs) : Statement (.acas o) := ⟨rfl, fun _ => rfl⟩
theorem amax (o : AArgs) : Statement (.amax o) := ⟨rfl, fun _ => rfl⟩
theorem amin (o : AArgs) : Statement (.amin o) := ⟨rfl, fun _ => rfl⟩
theorem aand (o : AArgs) : Statement (.aand o) := ⟨rfl, fun _ => rfl⟩
theorem aor (o : AArgs) : Statement (.aor o) := ⟨rfl, fun _ => rfl⟩
theorem axor (o : AArgs) : Statement (.axor o) := ⟨rfl, fun _ => rfl⟩
theorem bkadd (o : BArgs) : Statement (.bkadd o) := ⟨rfl, fun _ => rfl⟩
theorem bkmax (o : BArgs) : Statement (.bkmax o) := ⟨rfl, fun _ => rfl⟩
theorem bkscl (o : BArgs) : Statement (.bkscl o) := ⟨rfl, fun _ => rfl⟩
theorem bkfma (o : BArgs) : Statement (.bkfma o) := ⟨rfl, fun _ => rfl⟩
theorem bksmx (o : BArgs) : Statement (.bksmx o) := ⟨rfl, fun _ => rfl⟩
theorem bkcvt (o : BArgs) : Statement (.bkcvt o) := ⟨rfl, fun _ => rfl⟩
theorem bkfill (o : BArgs) : Statement (.bkfill o) := ⟨rfl, fun _ => rfl⟩
theorem bkred (o : BArgs) : Statement (.bkred o) := ⟨rfl, fun _ => rfl⟩
theorem mxc (d : SReg) (a : EReg) : Statement (.mxc d a) := ⟨rfl, fun _ => rfl⟩
theorem cpc (d : SReg) (a : EReg) : Statement (.cpc d a) := ⟨rfl, fun _ => rfl⟩
theorem estat (d : SReg) (cp clr : Bool) : Statement (.estat d cp clr) := ⟨rfl, fun _ => rfl⟩
theorem spawn (d a b : SReg) : Statement (.spawn d a b) := ⟨rfl, fun _ => rfl⟩
theorem fork (d a b : SReg) : Statement (.fork d a b) := ⟨rfl, fun _ => rfl⟩
theorem quit : Statement .quit := ⟨rfl, fun _ => rfl⟩
theorem yield : Statement .yield := ⟨rfl, fun _ => rfl⟩
theorem send (d a b : SReg) (ovr : Option Scope) (nw : Bool) : Statement (.send d a b ovr nw) := ⟨rfl, fun _ => rfl⟩
theorem recv (d a : SReg) (tag nw : Bool) : Statement (.recv d a tag nw) := ⟨rfl, fun _ => rfl⟩
theorem arrMatch (d a b : SReg) (wake : Bool) : Statement (.arrMatch d a b wake) := ⟨rfl, fun _ => rfl⟩
theorem waitt (d a b : SReg) : Statement (.waitt d a b) := ⟨rfl, fun _ => rfl⟩
theorem mfc (d : SReg) (num : BitVec 12) : Statement (.mfc d num) := ⟨rfl, fun _ => rfl⟩
theorem mtc (num : BitVec 12) (a : SReg) : Statement (.mtc num a) := ⟨rfl, fun _ => rfl⟩
theorem trap (imm : Imm16) : Statement (.trap imm) := ⟨rfl, fun _ => rfl⟩
theorem rft (skip : Bool) : Statement (.rft skip) := ⟨rfl, fun _ => rfl⟩
theorem kill (d a : SReg) (dom nw : Bool) : Statement (.kill d a dom nw) := ⟨rfl, fun _ => rfl⟩
theorem halt : Statement .halt := ⟨rfl, fun _ => rfl⟩
theorem plbw (d a b : SReg) : Statement (.plbw d a b) := ⟨rfl, fun _ => rfl⟩
theorem nopa : Statement .nopa := ⟨rfl, fun _ => rfl⟩
theorem add (w32 : Bool) (d a b : SReg) : Statement (.add w32 d a b) := ⟨rfl, fun _ => rfl⟩
theorem sub (w32 : Bool) (d a b : SReg) : Statement (.sub w32 d a b) := ⟨rfl, fun _ => rfl⟩
theorem and (d a b : SReg) : Statement (.and d a b) := ⟨rfl, fun _ => rfl⟩
theorem or (d a b : SReg) : Statement (.or d a b) := ⟨rfl, fun _ => rfl⟩
theorem xor (d a b : SReg) : Statement (.xor d a b) := ⟨rfl, fun _ => rfl⟩
theorem andn (d a b : SReg) : Statement (.andn d a b) := ⟨rfl, fun _ => rfl⟩
theorem shl (d a b : SReg) : Statement (.shl d a b) := ⟨rfl, fun _ => rfl⟩
theorem shr (d a b : SReg) : Statement (.shr d a b) := ⟨rfl, fun _ => rfl⟩
theorem sra (d a b : SReg) : Statement (.sra d a b) := ⟨rfl, fun _ => rfl⟩
theorem mul (w32 : Bool) (d a b : SReg) : Statement (.mul w32 d a b) := ⟨rfl, fun _ => rfl⟩
theorem mulh (d a b : SReg) : Statement (.mulh d a b) := ⟨rfl, fun _ => rfl⟩
theorem mulhu (d a b : SReg) : Statement (.mulhu d a b) := ⟨rfl, fun _ => rfl⟩
theorem div (w32 : Bool) (d a b : SReg) : Statement (.div w32 d a b) := ⟨rfl, fun _ => rfl⟩
theorem divu (w32 : Bool) (d a b : SReg) : Statement (.divu w32 d a b) := ⟨rfl, fun _ => rfl⟩
theorem rem (w32 : Bool) (d a b : SReg) : Statement (.rem w32 d a b) := ⟨rfl, fun _ => rfl⟩
theorem remu (w32 : Bool) (d a b : SReg) : Statement (.remu w32 d a b) := ⟨rfl, fun _ => rfl⟩
theorem min (d a b : SReg) : Statement (.min d a b) := ⟨rfl, fun _ => rfl⟩
theorem max (d a b : SReg) : Statement (.max d a b) := ⟨rfl, fun _ => rfl⟩
theorem minu (d a b : SReg) : Statement (.minu d a b) := ⟨rfl, fun _ => rfl⟩
theorem maxu (d a b : SReg) : Statement (.maxu d a b) := ⟨rfl, fun _ => rfl⟩
theorem cmpeq (d a b : SReg) : Statement (.cmpeq d a b) := ⟨rfl, fun _ => rfl⟩
theorem cmpne (d a b : SReg) : Statement (.cmpne d a b) := ⟨rfl, fun _ => rfl⟩
theorem cmplt (d a b : SReg) : Statement (.cmplt d a b) := ⟨rfl, fun _ => rfl⟩
theorem cmpltu (d a b : SReg) : Statement (.cmpltu d a b) := ⟨rfl, fun _ => rfl⟩
theorem cmple (d a b : SReg) : Statement (.cmple d a b) := ⟨rfl, fun _ => rfl⟩
theorem cmpleu (d a b : SReg) : Statement (.cmpleu d a b) := ⟨rfl, fun _ => rfl⟩
theorem sel (d a b c : SReg) : Statement (.sel d a b c) := ⟨rfl, fun _ => rfl⟩
theorem clz (d a : SReg) : Statement (.clz d a) := ⟨rfl, fun _ => rfl⟩
theorem ctz (d a : SReg) : Statement (.ctz d a) := ⟨rfl, fun _ => rfl⟩
theorem popc (d a : SReg) : Statement (.popc d a) := ⟨rfl, fun _ => rfl⟩
theorem bfx (d a b : SReg) (sg : Bool) : Statement (.bfx d a b sg) := ⟨rfl, fun _ => rfl⟩
theorem bfi (d a b : SReg) : Statement (.bfi d a b) := ⟨rfl, fun _ => rfl⟩
theorem addi (d a : SReg) (imm : Imm11) : Statement (.addi d a imm) := ⟨rfl, fun _ => rfl⟩
theorem andi (d a : SReg) (imm : Imm11) : Statement (.andi d a imm) := ⟨rfl, fun _ => rfl⟩
theorem ori (d a : SReg) (imm : Imm11) : Statement (.ori d a imm) := ⟨rfl, fun _ => rfl⟩
theorem xori (d a : SReg) (imm : Imm11) : Statement (.xori d a imm) := ⟨rfl, fun _ => rfl⟩
theorem shli (d a : SReg) (imm : Imm11) : Statement (.shli d a imm) := ⟨rfl, fun _ => rfl⟩
theorem shri (d a : SReg) (imm : Imm11) : Statement (.shri d a imm) := ⟨rfl, fun _ => rfl⟩
theorem srai (d a : SReg) (imm : Imm11) : Statement (.srai d a imm) := ⟨rfl, fun _ => rfl⟩
theorem cmpeqi (d a : SReg) (imm : Imm11) : Statement (.cmpeqi d a imm) := ⟨rfl, fun _ => rfl⟩
theorem cmplti (d a : SReg) (imm : Imm11) : Statement (.cmplti d a imm) := ⟨rfl, fun _ => rfl⟩
theorem li (d : SReg) (imm : Imm16) : Statement (.li d imm) := ⟨rfl, fun _ => rfl⟩
theorem lui (d : SReg) (imm : Imm16) : Statement (.lui d imm) := ⟨rfl, fun _ => rfl⟩
theorem fadd (d a b : SReg) : Statement (.fadd d a b) := ⟨rfl, fun _ => rfl⟩
theorem fsub (d a b : SReg) : Statement (.fsub d a b) := ⟨rfl, fun _ => rfl⟩
theorem fmul (d a b : SReg) : Statement (.fmul d a b) := ⟨rfl, fun _ => rfl⟩
theorem ffma (d a b c : SReg) : Statement (.ffma d a b c) := ⟨rfl, fun _ => rfl⟩
theorem fmin (d a b : SReg) : Statement (.fmin d a b) := ⟨rfl, fun _ => rfl⟩
theorem fmax (d a b : SReg) : Statement (.fmax d a b) := ⟨rfl, fun _ => rfl⟩
theorem fdiv (d a b : SReg) : Statement (.fdiv d a b) := ⟨rfl, fun _ => rfl⟩
theorem fsqrt (d a : SReg) : Statement (.fsqrt d a) := ⟨rfl, fun _ => rfl⟩
theorem fcmp (d a b : SReg) (p : BitVec 3) : Statement (.fcmp d a b p) := ⟨rfl, fun _ => rfl⟩
theorem fcvt (d a : SReg) (k : BitVec 3) (rm : Rnd) (sat : Bool) : Statement (.fcvt d a k rm sat) := ⟨rfl, fun _ => rfl⟩
theorem fclass (d a : SReg) : Statement (.fclass d a) := ⟨rfl, fun _ => rfl⟩
theorem vadd (o : VArgs) : Statement (.vadd o) := ⟨rfl, fun _ => rfl⟩
theorem vsub (o : VArgs) : Statement (.vsub o) := ⟨rfl, fun _ => rfl⟩
theorem vmul (o : VArgs) : Statement (.vmul o) := ⟨rfl, fun _ => rfl⟩
theorem vfma (o : VArgs) : Statement (.vfma o) := ⟨rfl, fun _ => rfl⟩
theorem vmin (o : VArgs) : Statement (.vmin o) := ⟨rfl, fun _ => rfl⟩
theorem vmax (o : VArgs) : Statement (.vmax o) := ⟨rfl, fun _ => rfl⟩
theorem vabs (o : VArgs) : Statement (.vabs o) := ⟨rfl, fun _ => rfl⟩
theorem vand (o : VArgs) : Statement (.vand o) := ⟨rfl, fun _ => rfl⟩
theorem vor (o : VArgs) : Statement (.vor o) := ⟨rfl, fun _ => rfl⟩
theorem vxor (o : VArgs) : Statement (.vxor o) := ⟨rfl, fun _ => rfl⟩
theorem vshl (o : VArgs) : Statement (.vshl o) := ⟨rfl, fun _ => rfl⟩
theorem vshr (o : VArgs) : Statement (.vshr o) := ⟨rfl, fun _ => rfl⟩
theorem vcmp (o : VCArgs) : Statement (.vcmp o) := ⟨rfl, fun _ => rfl⟩
theorem vsel (o : VArgs) : Statement (.vsel o) := ⟨rfl, fun _ => rfl⟩
theorem vbcast (o : VSArgs) : Statement (.vbcast o) := ⟨rfl, fun _ => rfl⟩
theorem vins (o : VLArgs) : Statement (.vins o) := ⟨rfl, fun _ => rfl⟩
theorem vext (o : VLArgs) : Statement (.vext o) := ⟨rfl, fun _ => rfl⟩
theorem vredadd (o : VSArgs) : Statement (.vredadd o) := ⟨rfl, fun _ => rfl⟩
theorem vredmax (o : VSArgs) : Statement (.vredmax o) := ⟨rfl, fun _ => rfl⟩
theorem vperm (o : VArgs) : Statement (.vperm o) := ⟨rfl, fun _ => rfl⟩
theorem vcvt (o : VArgs) : Statement (.vcvt o) := ⟨rfl, fun _ => rfl⟩
theorem vexp2 (o : VArgs) : Statement (.vexp2 o) := ⟨rfl, fun _ => rfl⟩
theorem vrcp (o : VArgs) : Statement (.vrcp o) := ⟨rfl, fun _ => rfl⟩
theorem vdot4 (o : VArgs) : Statement (.vdot4 o) := ⟨rfl, fun _ => rfl⟩
theorem vaddsub (o : VArgs) : Statement (.vaddsub o) := ⟨rfl, fun _ => rfl⟩
theorem mop (o : MopArgs) : Statement (.mop o) := ⟨rfl, fun _ => rfl⟩
theorem unpk3 (o : VArgs) : Statement (.unpk3 o) := ⟨rfl, fun _ => rfl⟩
theorem unpk4 (o : VArgs) : Statement (.unpk4 o) := ⟨rfl, fun _ => rfl⟩
theorem unpki3 (o : VArgs) : Statement (.unpki3 o) := ⟨rfl, fun _ => rfl⟩
theorem gadd (gd ga gb : QReg) (sub : Bool) : Statement (.gadd gd ga gb sub) := ⟨rfl, fun _ => rfl⟩
theorem gext (gd ga gb : QReg) : Statement (.gext gd ga gb) := ⟨rfl, fun _ => rfl⟩
theorem gelim (gd ga : QReg) (keep : BitVec 7) : Statement (.gelim gd ga keep) := ⟨rfl, fun _ => rfl⟩
theorem gdamp (gd ga gb : QReg) : Statement (.gdamp gd ga gb) := ⟨rfl, fun _ => rfl⟩
theorem gres (s : SReg) (ga gb : QReg) : Statement (.gres s ga gb) := ⟨rfl, fun _ => rfl⟩
theorem gmean (gd ga : QReg) : Statement (.gmean gd ga) := ⟨rfl, fun _ => rfl⟩
theorem escalationLogged : Statement .escalationLogged := ⟨rfl, fun h => h⟩
theorem asyncCauseTaken : Statement .asyncCauseTaken := ⟨rfl, fun h => h⟩
theorem fetch : Statement .fetch := ⟨rfl, fun h => h⟩
theorem icacheFill : Statement .icacheFill := ⟨rfl, fun h => h⟩
theorem parkResume : Statement .parkResume := ⟨rfl, fun h => h⟩
theorem resultReturn : Statement .resultReturn := ⟨rfl, fun h => h⟩
theorem loadDataReturn : Statement .loadDataReturn := ⟨rfl, fun h => h⟩
theorem storeAck : Statement .storeAck := ⟨rfl, fun h => h⟩
theorem accessAccepted : Statement .accessAccepted := ⟨rfl, fun h => h⟩
theorem probeEcho : Statement .probeEcho := ⟨rfl, fun h => h⟩
theorem bankGrant : Statement .bankGrant := ⟨rfl, fun h => h⟩
theorem sliceDataServe : Statement .sliceDataServe := ⟨rfl, fun h => h⟩
theorem l1Fill : Statement .l1Fill := ⟨rfl, fun h => h⟩
theorem l2Fill : Statement .l2Fill := ⟨rfl, fun h => h⟩
theorem hbmChannelServe : Statement .hbmChannelServe := ⟨rfl, fun h => h⟩
theorem walkComplete : Statement .walkComplete := ⟨rfl, fun h => h⟩
theorem tlbinvWrite : Statement .tlbinvWrite := ⟨rfl, fun h => h⟩
theorem tlbinvDone : Statement .tlbinvDone := ⟨rfl, fun h => h⟩
theorem rdclenWrite : Statement .rdclenWrite := ⟨rfl, fun h => h⟩
theorem rdcRemovalDone : Statement .rdcRemovalDone := ⟨rfl, fun h => h⟩
theorem domgenWrite : Statement .domgenWrite := ⟨rfl, fun h => h⟩
theorem domgenDone : Statement .domgenDone := ⟨rfl, fun h => h⟩
theorem snapctlGo : Statement .snapctlGo := ⟨rfl, fun h => h⟩
theorem snapshotDone : Statement .snapshotDone := ⟨rfl, fun h => h⟩
theorem timesetWrite : Statement .timesetWrite := ⟨rfl, fun h => h⟩
theorem registerWrite : Statement .registerWrite := ⟨rfl, fun h => h⟩
theorem swapctlHalt : Statement .swapctlHalt := ⟨rfl, fun h => h⟩
theorem haltDrained : Statement .haltDrained := ⟨rfl, fun h => h⟩
theorem swapctlGo : Statement .swapctlGo := ⟨rfl, fun h => h⟩
theorem swapExchangeDone : Statement .swapExchangeDone := ⟨rfl, fun h => h⟩
theorem purge : Statement .purge := ⟨rfl, fun h => h⟩
theorem errcntClear : Statement .errcntClear := ⟨rfl, fun h => h⟩
theorem partitionEnable : Statement .partitionEnable := ⟨rfl, fun h => h⟩
theorem partitionDisable : Statement .partitionDisable := ⟨rfl, fun h => h⟩
theorem enableClearEffect : Statement .enableClearEffect := ⟨rfl, fun h => h⟩
theorem nouvWrite : Statement .nouvWrite := ⟨rfl, fun h => h⟩
theorem resumeGo : Statement .resumeGo := ⟨rfl, fun h => h⟩
theorem objectWindowRequest : Statement .objectWindowRequest := ⟨rfl, fun h => h⟩
theorem bar4Write : Statement .bar4Write := ⟨rfl, fun h => h⟩
theorem bar4Read : Statement .bar4Read := ⟨rfl, fun h => h⟩
theorem bar2Read : Statement .bar2Read := ⟨rfl, fun h => h⟩
theorem bar2Write : Statement .bar2Write := ⟨rfl, fun h => h⟩
theorem hostWindowCompletion : Statement .hostWindowCompletion := ⟨rfl, fun h => h⟩
theorem attestationRequest : Statement .attestationRequest := ⟨rfl, fun h => h⟩
theorem secureBoot : Statement .secureBoot := ⟨rfl, fun h => h⟩
theorem clockStep : Statement .clockStep := ⟨rfl, fun h => h⟩
theorem dispatcherTake : Statement .dispatcherTake := ⟨rfl, fun h => h⟩
theorem packetVerify : Statement .packetVerify := ⟨rfl, fun h => h⟩
theorem depctrGrant : Statement .depctrGrant := ⟨rfl, fun h => h⟩
theorem depctrRetry : Statement .depctrRetry := ⟨rfl, fun h => h⟩
theorem notbeforeReached : Statement .notbeforeReached := ⟨rfl, fun h => h⟩
theorem placeContext : Statement .placeContext := ⟨rfl, fun h => h⟩
theorem packetComplete : Statement .packetComplete := ⟨rfl, fun h => h⟩
theorem slotFill : Statement .slotFill := ⟨rfl, fun h => h⟩
theorem imageFetch : Statement .imageFetch := ⟨rfl, fun h => h⟩
theorem displacement : Statement .displacement := ⟨rfl, fun h => h⟩
theorem quantumPreempt : Statement .quantumPreempt := ⟨rfl, fun h => h⟩
theorem readyPromotion : Statement .readyPromotion := ⟨rfl, fun h => h⟩
theorem stealProbe : Statement .stealProbe := ⟨rfl, fun h => h⟩
theorem stealProbeResult : Statement .stealProbeResult := ⟨rfl, fun h => h⟩
theorem stealBackoffEnd : Statement .stealBackoffEnd := ⟨rfl, fun h => h⟩
theorem wake : Statement .wake := ⟨rfl, fun h => h⟩
theorem waittDeadline : Statement .waittDeadline := ⟨rfl, fun h => h⟩
theorem objectRequestArrival : Statement .objectRequestArrival := ⟨rfl, fun h => h⟩
theorem parentWake : Statement .parentWake := ⟨rfl, fun h => h⟩
theorem objectReply : Statement .objectReply := ⟨rfl, fun h => h⟩
theorem spillRefill : Statement .spillRefill := ⟨rfl, fun h => h⟩
theorem switchCombine : Statement .switchCombine := ⟨rfl, fun h => h⟩
theorem combinedReplySplit : Statement .combinedReplySplit := ⟨rfl, fun h => h⟩
theorem switchOutputGrant : Statement .switchOutputGrant := ⟨rfl, fun h => h⟩
theorem watchdogExpiry : Statement .watchdogExpiry := ⟨rfl, fun h => h⟩
theorem messageArrival : Statement .messageArrival := ⟨rfl, fun h => h⟩
theorem messageRetry : Statement .messageRetry := ⟨rfl, fun h => h⟩
theorem sendAnswer : Statement .sendAnswer := ⟨rfl, fun h => h⟩
theorem spawnAnswer : Statement .spawnAnswer := ⟨rfl, fun h => h⟩
theorem arrivalCount : Statement .arrivalCount := ⟨rfl, fun h => h⟩
theorem quitComplete : Statement .quitComplete := ⟨rfl, fun h => h⟩
theorem cpLaneStart : Statement .cpLaneStart := ⟨rfl, fun h => h⟩
theorem cpUnit : Statement .cpUnit := ⟨rfl, fun h => h⟩
theorem cpWritesAcked : Statement .cpWritesAcked := ⟨rfl, fun h => h⟩
theorem cpActionReply : Statement .cpActionReply := ⟨rfl, fun h => h⟩
theorem mxCommandStart : Statement .mxCommandStart := ⟨rfl, fun h => h⟩
theorem mxGroup : Statement .mxGroup := ⟨rfl, fun h => h⟩
theorem mxWritesAcked : Statement .mxWritesAcked := ⟨rfl, fun h => h⟩
theorem mxCtrReply : Statement .mxCtrReply := ⟨rfl, fun h => h⟩
theorem gmmaAdmit : Statement .gmmaAdmit := ⟨rfl, fun h => h⟩
theorem gmmaPartDone : Statement .gmmaPartDone := ⟨rfl, fun h => h⟩
theorem accstDigestCompare : Statement .accstDigestCompare := ⟨rfl, fun h => h⟩
theorem twinCompare : Statement .twinCompare := ⟨rfl, fun h => h⟩
theorem twinRestoreDone : Statement .twinRestoreDone := ⟨rfl, fun h => h⟩
theorem checkpointCompare : Statement .checkpointCompare := ⟨rfl, fun h => h⟩
theorem registerRepair : Statement .registerRepair := ⟨rfl, fun h => h⟩
theorem replayDone : Statement .replayDone := ⟨rfl, fun h => h⟩
theorem arrayError : Statement .arrayError := ⟨rfl, fun h => h⟩
theorem voltageLower : Statement .voltageLower := ⟨rfl, fun h => h⟩
theorem linkFlitReceive : Statement .linkFlitReceive := ⟨rfl, fun h => h⟩
theorem nakReceive : Statement .nakReceive := ⟨rfl, fun h => h⟩
theorem nakRepeat : Statement .nakRepeat := ⟨rfl, fun h => h⟩
theorem ackTimer : Statement .ackTimer := ⟨rfl, fun h => h⟩
theorem laneFailure : Statement .laneFailure := ⟨rfl, fun h => h⟩
theorem retrainDone : Statement .retrainDone := ⟨rfl, fun h => h⟩
theorem timeFlitSend : Statement .timeFlitSend := ⟨rfl, fun h => h⟩
theorem timeFlitReceive : Statement .timeFlitReceive := ⟨rfl, fun h => h⟩
theorem leaseStart : Statement .leaseStart := ⟨rfl, fun h => h⟩
theorem handoverDone : Statement .handoverDone := ⟨rfl, fun h => h⟩
theorem graceDeadline : Statement .graceDeadline := ⟨rfl, fun h => h⟩
theorem moveDone : Statement .moveDone := ⟨rfl, fun h => h⟩
theorem testEnd : Statement .testEnd := ⟨rfl, fun h => h⟩
theorem lineMove : Statement .lineMove := ⟨rfl, fun h => h⟩
theorem portDrained : Statement .portDrained := ⟨rfl, fun h => h⟩
theorem scoreTick : Statement .scoreTick := ⟨rfl, fun h => h⟩
theorem hbeatTick : Statement .hbeatTick := ⟨rfl, fun h => h⟩
theorem killComplete : Statement .killComplete := ⟨rfl, fun h => h⟩
theorem illegalOp : Statement .illegalOp := ⟨rfl, fun h => h⟩
theorem spawnCreation : Statement .spawnCreation := ⟨rfl, fun h => h⟩
theorem inboxRefill : Statement .inboxRefill := ⟨rfl, fun h => h⟩
theorem syncLoss : Statement .syncLoss := ⟨rfl, fun h => h⟩

end Sys2Proof.Laws.HasEncoding
end

