-- ==== Sys2Proof/Tests/Slice0.lean ====
section
/-!
SUPPORT. Tests of this model: words written out from the encoding tables, ill-formed terms, single instructions on a small
state, and for each statement with hypotheses a concrete state that meets them (`witness_<statement>`). Expected values are
worked by hand from the chapters of the spec.
-/
namespace Sys2Proof.Tests
open Sys2Proof Sys2Proof.Machine

/-! ### Words of R19 to R26, one for every encoded row of the opcode table -/

theorem test_decode_control :
    decodeTableWord 32 0x40000000 = some (.nopc) ∧
    decodeTableWord 32 0x402957FD = some (.beq 9 10 ⟨0x7FD, none⟩) ∧
    decodeTableWord 32 0x404957FD = some (.bne 9 10 ⟨0x7FD, none⟩) ∧
    decodeTableWord 32 0x406957FD = some (.blt 9 10 ⟨0x7FD, none⟩) ∧
    decodeTableWord 32 0x408957FD = some (.bge 9 10 ⟨0x7FD, none⟩) ∧
    decodeTableWord 32 0x40A957FD = some (.bltu 9 10 ⟨0x7FD, none⟩) ∧
    decodeTableWord 32 0x40C957FD = some (.bgeu 9 10 ⟨0x7FD, none⟩) ∧
    decodeTableWord 32 0x40E957FD = some (.loop 9 10 ⟨0x7FD, none⟩) ∧
    decodeTableWord 32 0x411FFFF0 = some (.jmp 0x1FFFF0) ∧
    decodeTableWord 32 0x413FFFF0 = some (.call 0x1FFFF0) ∧
    decodeTableWord 32 0x41405005 = some (.jr 10 ⟨5, none⟩) ∧
    decodeTableWord 32 0x41605005 = some (.callr 10 ⟨5, none⟩) := by
  decide

theorem test_decode_memory_a :
    decodeTableWord 32 0x4209503F = some (.ldb ⟨9, 10, .global, false, ⟨63, none⟩⟩) ∧
    decodeTableWord 32 0x4229533E = some (.ldbu ⟨9, 10, .slabLocal, true, ⟨62, none⟩⟩) ∧
    decodeTableWord 32 0x4249543D = some (.ldh ⟨9, 10, .striped, false, ⟨61, none⟩⟩) ∧
    decodeTableWord 32 0x4269573C = some (.ldhu ⟨9, 10, .own, true, ⟨60, none⟩⟩) ∧
    decodeTableWord 32 0x4289503B = some (.ldw ⟨9, 10, .global, false, ⟨59, none⟩⟩) ∧
    decodeTableWord 32 0x42A9533A = some (.ldwu ⟨9, 10, .slabLocal, true, ⟨58, none⟩⟩) ∧
    decodeTableWord 32 0x42C95439 = some (.ldd ⟨9, 10, .striped, false, ⟨57, none⟩⟩) ∧
    decodeTableWord 32 0x42E952C2 = some (.lda ⟨9, 10, .slabLocal, .module, ⟨2, none⟩⟩) ∧
    decodeTableWord 32 0x43095738 = some (.stb ⟨9, 10, .own, true, ⟨56, none⟩⟩) ∧
    decodeTableWord 32 0x43295037 = some (.sth ⟨9, 10, .global, false, ⟨55, none⟩⟩) ∧
    decodeTableWord 32 0x43495336 = some (.stw ⟨9, 10, .slabLocal, true, ⟨54, none⟩⟩) ∧
    decodeTableWord 32 0x43695435 = some (.std ⟨9, 10, .striped, false, ⟨53, none⟩⟩) ∧
    decodeTableWord 32 0x43895642 = some (.stl ⟨9, 10, .own, .cluster, ⟨2, none⟩⟩) ∧
    decodeTableWord 32 0x43A00100 = some (.fence .pod false) ∧
    decodeTableWord 32 0x43C65007 = some (.l1inv false true (.line 10 ⟨7, none⟩)) ∧
    decodeTableWord 32 0x440F5501 = some (.vld ⟨15, 10, .striped, true, ⟨1, none⟩⟩) ∧
    decodeTableWord 32 0x442F5501 = some (.vst ⟨15, 10, .striped, true, ⟨1, none⟩⟩) ∧
    decodeTableWord 32 0x444D52E7 = some (.vlds ⟨13, 10, 11, .own, true, .bf16⟩) ∧
    decodeTableWord 32 0x446D52E7 = some (.vsts ⟨13, 10, 11, .own, true, .bf16⟩) ∧
    decodeTableWord 32 0x44835001 = some (.gld ⟨3, 10, .global, false, ⟨1, none⟩⟩) := by
  decide

theorem test_decode_memory_b :
    decodeTableWord 32 0x44A35001 = some (.gst ⟨3, 10, .global, false, ⟨1, none⟩⟩) := by
  decide

theorem test_decode_objects_a :
    decodeTableWord 32 0x450052C0 = some (.oinit ⟨0, 10, 11, none, false, false, false⟩) ∧
    decodeTableWord 32 0x45205000 = some (.ofree ⟨0, 10, 0, none, false, false, false⟩) ∧
    decodeTableWord 32 0x454952C0 = some (.oread ⟨9, 10, 11, none, false, false, false⟩) ∧
    decodeTableWord 32 0x456952E6 = some (.cadd ⟨9, 10, 11, some .module, true, true, false⟩) ∧
    decodeTableWord 32 0x458852EB = some (.cwait ⟨8, 10, 11, some .pod, false, true, true⟩) ∧
    decodeTableWord 32 0x45A952CA = some (.cset ⟨9, 10, 11, some .core, false, true, false⟩) ∧
    decodeTableWord 32 0x45C852D3 = some (.barr ⟨8, 10, 11, some .cluster, false, true, true⟩) ∧
    decodeTableWord 32 0x45E952DA = some (.bwait ⟨9, 10, 11, some .die, false, true, false⟩) ∧
    decodeTableWord 32 0x460052C0 = some (.barw ⟨0, 10, 11, none, false, false, false⟩) ∧
    decodeTableWord 32 0x46285003 = some (.ltake ⟨8, 10, 0, none, false, true, true⟩) ∧
    decodeTableWord 32 0x46495002 = some (.lgive ⟨9, 10, 0, none, false, true, false⟩) ∧
    decodeTableWord 32 0x466852C3 = some (.qput ⟨8, 10, 11, none, false, true, true⟩) ∧
    decodeTableWord 32 0x468852C1 = some (.qget ⟨8, 10, 11, none, false, false, true⟩) ∧
    decodeTableWord 32 0x46A85001 = some (.kwait ⟨8, 10, 0, none, false, false, true⟩) ∧
    decodeTableWord 32 0x46C05000 = some (.ksig ⟨0, 10, 0, none, false, false, false⟩) ∧
    decodeTableWord 32 0x46E05020 = some (.kall ⟨0, 10, 0, some .module, false, false, false⟩) ∧
    decodeTableWord 32 0x470852C1 = some (.feget ⟨8, 10, 11, none, false, false, true⟩) ∧
    decodeTableWord 32 0x472852C1 = some (.feput ⟨8, 10, 11, none, false, false, true⟩) ∧
    decodeTableWord 32 0x474952C0 = some (.fepeek ⟨9, 10, 11, none, false, false, false⟩) ∧
    decodeTableWord 32 0x480952C0 = some (.aadd ⟨9, 10, 11, false⟩) := by
  decide

theorem test_decode_objects_b :
    decodeTableWord 32 0x482952C8 = some (.aswap ⟨9, 10, 11, true⟩) ∧
    decodeTableWord 32 0x484952C0 = some (.acas ⟨9, 10, 11, false⟩) ∧
    decodeTableWord 32 0x486952C8 = some (.amax ⟨9, 10, 11, true⟩) ∧
    decodeTableWord 32 0x488952C0 = some (.amin ⟨9, 10, 11, false⟩) ∧
    decodeTableWord 32 0x48A952C8 = some (.aand ⟨9, 10, 11, true⟩) ∧
    decodeTableWord 32 0x48C952C0 = some (.aor ⟨9, 10, 11, false⟩) ∧
    decodeTableWord 32 0x48E952C8 = some (.axor ⟨9, 10, 11, true⟩) := by
  decide

theorem test_decode_banks :
    decodeTableWord 32 0x490952CB = some (.bkadd ⟨9, 10, 11, .own, false, true, 0⟩) ∧
    decodeTableWord 32 0x492952C5 = some (.bkmax ⟨9, 10, 11, .slabLocal, true, false, 0⟩) ∧
    decodeTableWord 32 0x4949500C = some (.bkscl ⟨9, 10, 0, .global, true, true, 0⟩) ∧
    decodeTableWord 32 0x496952C0 = some (.bkfma ⟨9, 10, 11, .global, false, false, 0⟩) ∧
    decodeTableWord 32 0x4989500B = some (.bksmx ⟨9, 10, 0, .own, false, true, 0⟩) ∧
    decodeTableWord 32 0x49A952F1 = some (.bkcvt ⟨9, 10, 11, .slabLocal, false, false, 3⟩) ∧
    decodeTableWord 32 0x49C95008 = some (.bkfill ⟨9, 10, 0, .global, false, true, 0⟩) ∧
    decodeTableWord 32 0x49E952DF = some (.bkred ⟨9, 10, 11, .own, true, true, 1⟩) ∧
    decodeTableWord 32 0x4A098000 = some (.mxc 9 .s16) ∧
    decodeTableWord 32 0x4A29C000 = some (.cpc 9 .s24) ∧
    decodeTableWord 32 0x4A490002 = some (.estat 9 false true) := by
  decide

theorem test_decode_system :
    decodeTableWord 32 0x4B0952C0 = some (.spawn 9 10 11) ∧
    decodeTableWord 32 0x4B2952C0 = some (.fork 9 10 11) ∧
    decodeTableWord 32 0x4B400000 = some (.quit) ∧
    decodeTableWord 32 0x4B600000 = some (.yield) ∧
    decodeTableWord 32 0x4B895305 = some (.send 9 10 12 (some .cluster) true) ∧
    decodeTableWord 32 0x4BAC5003 = some (.recv 12 10 true true) ∧
    decodeTableWord 32 0x4BC952C1 = some (.arrMatch 9 10 11 true) ∧
    decodeTableWord 32 0x4BE952C0 = some (.waitt 9 10 11) ∧
    decodeTableWord 32 0x4E140030 = some (.mfc 20 0x030) ∧
    decodeTableWord 32 0x4E340036 = some (.mtc 0x036 20) ∧
    decodeTableWord 32 0x4E400055 = some (.trap ⟨0x55, none⟩) ∧
    decodeTableWord 32 0x4E600001 = some (.rft true) ∧
    decodeTableWord 32 0x4E885003 = some (.kill 8 10 true true) ∧
    decodeTableWord 32 0x4EA00000 = some (.halt) ∧
    decodeTableWord 32 0x4EC952C0 = some (.plbw 9 10 11) := by
  decide

theorem test_decode_integer_a :
    decodeTableWord 32 0x50000000 = some (.nopa) ∧
    decodeTableWord 32 0x502952C1 = some (.add true 9 10 11) ∧
    decodeTableWord 32 0x504952C1 = some (.sub true 9 10 11) ∧
    decodeTableWord 32 0x506952C0 = some (.and 9 10 11) ∧
    decodeTableWord 32 0x508952C0 = some (.or 9 10 11) ∧
    decodeTableWord 32 0x50A952C0 = some (.xor 9 10 11) ∧
    decodeTableWord 32 0x50C952C0 = some (.andn 9 10 11) ∧
    decodeTableWord 32 0x50E952C0 = some (.shl 9 10 11) ∧
    decodeTableWord 32 0x510952C0 = some (.shr 9 10 11) ∧
    decodeTableWord 32 0x512952C0 = some (.sra 9 10 11) ∧
    decodeTableWord 32 0x514952C1 = some (.mul true 9 10 11) ∧
    decodeTableWord 32 0x516952C0 = some (.mulh 9 10 11) ∧
    decodeTableWord 32 0x518952C0 = some (.mulhu 9 10 11) ∧
    decodeTableWord 32 0x51A952C1 = some (.div true 9 10 11) ∧
    decodeTableWord 32 0x51C952C1 = some (.divu true 9 10 11) ∧
    decodeTableWord 32 0x51E952C1 = some (.rem true 9 10 11) ∧
    decodeTableWord 32 0x520952C1 = some (.remu true 9 10 11) ∧
    decodeTableWord 32 0x522952C0 = some (.min 9 10 11) ∧
    decodeTableWord 32 0x524952C0 = some (.max 9 10 11) ∧
    decodeTableWord 32 0x526952C0 = some (.minu 9 10 11) := by
  decide

theorem test_decode_integer_b :
    decodeTableWord 32 0x528952C0 = some (.maxu 9 10 11) ∧
    decodeTableWord 32 0x52A952C0 = some (.cmpeq 9 10 11) ∧
    decodeTableWord 32 0x52C952C0 = some (.cmpne 9 10 11) ∧
    decodeTableWord 32 0x52E952C0 = some (.cmplt 9 10 11) ∧
    decodeTableWord 32 0x530952C0 = some (.cmpltu 9 10 11) ∧
    decodeTableWord 32 0x532952C0 = some (.cmple 9 10 11) ∧
    decodeTableWord 32 0x534952C0 = some (.cmpleu 9 10 11) ∧
    decodeTableWord 32 0x536952CC = some (.sel 9 10 11 12) ∧
    decodeTableWord 32 0x53895000 = some (.clz 9 10) ∧
    decodeTableWord 32 0x53A95000 = some (.ctz 9 10) ∧
    decodeTableWord 32 0x53C95000 = some (.popc 9 10) ∧
    decodeTableWord 32 0x53E952C1 = some (.bfx 9 10 11 true) ∧
    decodeTableWord 32 0x540952C0 = some (.bfi 9 10 11) ∧
    decodeTableWord 32 0x54295400 = some (.addi 9 10 ⟨0x400, none⟩) ∧
    decodeTableWord 32 0x54495400 = some (.andi 9 10 ⟨0x400, none⟩) ∧
    decodeTableWord 32 0x54695400 = some (.ori 9 10 ⟨0x400, none⟩) ∧
    decodeTableWord 32 0x54895400 = some (.xori 9 10 ⟨0x400, none⟩) ∧
    decodeTableWord 32 0x54A9503F = some (.shli 9 10 ⟨63, none⟩) ∧
    decodeTableWord 32 0x54C9503F = some (.shri 9 10 ⟨63, none⟩) ∧
    decodeTableWord 32 0x54E9503F = some (.srai 9 10 ⟨63, none⟩) := by
  decide

theorem test_decode_integer_c :
    decodeTableWord 32 0x55095400 = some (.cmpeqi 9 10 ⟨0x400, none⟩) ∧
    decodeTableWord 32 0x55295400 = some (.cmplti 9 10 ⟨0x400, none⟩) ∧
    decodeTableWord 32 0x55498001 = some (.li 9 ⟨0x8001, none⟩) ∧
    decodeTableWord 32 0x55698001 = some (.lui 9 ⟨0x8001, none⟩) := by
  decide

theorem test_decode_float :
    decodeTableWord 32 0x560952C0 = some (.fadd 9 10 11) ∧
    decodeTableWord 32 0x562952C0 = some (.fsub 9 10 11) ∧
    decodeTableWord 32 0x564952C0 = some (.fmul 9 10 11) ∧
    decodeTableWord 32 0x566952CC = some (.ffma 9 10 11 12) ∧
    decodeTableWord 32 0x568952C0 = some (.fmin 9 10 11) ∧
    decodeTableWord 32 0x56A952C0 = some (.fmax 9 10 11) ∧
    decodeTableWord 32 0x56C952C0 = some (.fdiv 9 10 11) ∧
    decodeTableWord 32 0x56E95000 = some (.fsqrt 9 10) ∧
    decodeTableWord 32 0x570952C4 = some (.fcmp 9 10 11 4) ∧
    decodeTableWord 32 0x5729503E = some (.fcvt 9 10 6 .rup true) ∧
    decodeTableWord 32 0x57495000 = some (.fclass 9 10) := by
  decide

theorem test_decode_vector_a :
    decodeTableWord 32 0x58135613 = some (.vadd ⟨9, 10, 11, .i8, 1, 3⟩) ∧
    decodeTableWord 32 0x58335661 = some (.vsub ⟨9, 10, 11, .i16, 2, 1⟩) ∧
    decodeTableWord 32 0x585356B6 = some (.vmul ⟨9, 10, 11, .i32, 3, 6⟩) ∧
    decodeTableWord 32 0x587356C0 = some (.vfma ⟨9, 10, 11, .f16, 0, 0⟩) ∧
    decodeTableWord 32 0x58935792 = some (.vmin ⟨9, 10, 11, .i64, 1, 2⟩) ∧
    decodeTableWord 32 0x58B35720 = some (.vmax ⟨9, 10, 11, .bf16, 2, 0⟩) ∧
    decodeTableWord 32 0x58D34051 = some (.vabs ⟨9, 10, 0, .i16, 1, 1⟩) ∧
    decodeTableWord 32 0x58F35740 = some (.vand ⟨9, 10, 11, .f32, 0, 0⟩) ∧
    decodeTableWord 32 0x59135690 = some (.vor ⟨9, 10, 11, .i32, 1, 0⟩) ∧
    decodeTableWord 32 0x59335620 = some (.vxor ⟨9, 10, 11, .i8, 2, 0⟩) ∧
    decodeTableWord 32 0x595356B0 = some (.vshl ⟨9, 10, 11, .i32, 3, 0⟩) ∧
    decodeTableWord 32 0x59735782 = some (.vshr ⟨9, 10, 11, .i64, 0, 2⟩) ∧
    decodeTableWord 32 0x598556B6 = some (.vcmp ⟨2, 10, 11, .i32, 3, 6⟩) ∧
    decodeTableWord 32 0x59B356B0 = some (.vsel ⟨9, 10, 11, .i32, 3, 0⟩) ∧
    decodeTableWord 32 0x59D340D0 = some (.vbcast ⟨9, 20, .f16, 1, 0⟩) ∧
    decodeTableWord 32 0x59F3403F = some (.vins ⟨9, 20, .i8, 63⟩) ∧
    decodeTableWord 32 0x5A134187 = some (.vext ⟨9, 20, .i64, 7⟩) ∧
    decodeTableWord 32 0x5A3340A1 = some (.vredadd ⟨9, 20, .i32, 2, 1⟩) ∧
    decodeTableWord 32 0x5A534160 = some (.vredmax ⟨9, 20, .f32, 2, 0⟩) ∧
    decodeTableWord 32 0x5A735710 = some (.vperm ⟨9, 10, 11, .bf16, 1, 0⟩) := by
  decide

theorem test_decode_vector_b :
    decodeTableWord 32 0x5A93435B = some (.vcvt ⟨9, 10, 1, .f32, 1, 11⟩) ∧
    decodeTableWord 32 0x5AB34150 = some (.vexp2 ⟨9, 10, 0, .f32, 1, 0⟩) ∧
    decodeTableWord 32 0x5AD34150 = some (.vrcp ⟨9, 10, 0, .f32, 1, 0⟩) ∧
    decodeTableWord 32 0x5AF35632 = some (.vdot4 ⟨9, 10, 11, .i8, 3, 2⟩) ∧
    decodeTableWord 32 0x5B1356F0 = some (.vaddsub ⟨9, 10, 11, .f16, 3, 0⟩) ∧
    decodeTableWord 32 0x5B224683 = some (.mop ⟨1, 2, 3, .i32, 3⟩) ∧
    decodeTableWord 32 0x5B934014 = some (.unpk3 ⟨9, 10, 0, .i8, 1, 4⟩) ∧
    decodeTableWord 32 0x5BB34053 = some (.unpk4 ⟨9, 10, 0, .i16, 1, 3⟩) ∧
    decodeTableWord 32 0x5BD34011 = some (.unpki3 ⟨9, 10, 0, .i8, 1, 1⟩) := by
  decide

theorem test_decode_gaussian :
    decodeTableWord 32 0x5C108001 = some (.gadd 2 0 1 true) ∧
    decodeTableWord 32 0x5C338000 = some (.gext 2 1 3) ∧
    decodeTableWord 32 0x5C5C0055 = some (.gelim 3 2 0x55) ∧
    decodeTableWord 32 0x5C6D8000 = some (.gdamp 1 2 3) ∧
    decodeTableWord 32 0x5C85D000 = some (.gres 20 2 3) ∧
    decodeTableWord 32 0x5CBC0000 = some (.gmean 3 2) := by
  decide

/-! ### Ill-formed terms, one for each check of WellFormed, are refused (R17 and the entries) -/

theorem test_illFormed_control :
    Instr.wf (.loop 0 10 ⟨1, none⟩) = false ∧ Instr.wf (.loop 9 9 ⟨1, none⟩) = false ∧
    Instr.wf (.l1inv false false (.whole false)) = false ∧ Instr.wf .fetch = false := by decide

theorem test_illFormed_objects :
    Instr.wf (.oinit ⟨9, 10, 11, none, false, false, false⟩) = false ∧
    Instr.wf (.ofree ⟨0, 10, 11, none, false, false, false⟩) = false ∧
    Instr.wf (.oread ⟨9, 10, 11, none, false, false, true⟩) = false ∧
    Instr.wf (.cadd ⟨8, 10, 11, none, false, false, true⟩) = false ∧
    Instr.wf (.cwait ⟨9, 10, 11, none, false, false, true⟩) = false ∧
    Instr.wf (.cset ⟨9, 10, 11, none, true, true, false⟩) = false ∧
    Instr.wf (.barr ⟨9, 10, 11, none, false, false, false⟩) = false ∧
    Instr.wf (.bwait ⟨9, 10, 11, none, false, true, true⟩) = false ∧
    Instr.wf (.barw ⟨8, 10, 11, none, true, false, true⟩) = false ∧
    Instr.wf (.ltake ⟨9, 10, 11, none, false, true, false⟩) = false ∧
    Instr.wf (.lgive ⟨8, 10, 0, none, false, true, true⟩) = false ∧
    Instr.wf (.qput ⟨9, 10, 11, none, false, false, true⟩) = false ∧
    Instr.wf (.qget ⟨9, 10, 11, none, false, true, false⟩) = false ∧
    Instr.wf (.kwait ⟨0, 10, 11, none, false, false, false⟩) = false ∧
    Instr.wf (.ksig ⟨8, 10, 0, none, false, false, true⟩) = false ∧
    Instr.wf (.kall ⟨0, 10, 11, none, false, false, false⟩) = false ∧
    Instr.wf (.feget ⟨9, 10, 11, none, false, true, false⟩) = false ∧
    Instr.wf (.feput ⟨9, 10, 11, none, false, false, false⟩) = false ∧
    Instr.wf (.fepeek ⟨9, 10, 11, none, false, false, true⟩) = false := by decide

theorem test_illFormed_banks_and_messages :
    Instr.wf (.bkadd ⟨9, 10, 11, .striped, false, false, 0⟩) = false ∧
    Instr.wf (.bkmax ⟨9, 10, 11, .global, false, false, 1⟩) = false ∧
    Instr.wf (.bkfma ⟨9, 10, 11, .global, false, false, 2⟩) = false ∧
    Instr.wf (.bkscl ⟨9, 10, 11, .global, false, false, 0⟩) = false ∧
    Instr.wf (.bkfill ⟨9, 10, 11, .global, false, false, 0⟩) = false ∧
    Instr.wf (.bksmx ⟨9, 10, 11, .global, false, false, 0⟩) = false ∧
    Instr.wf (.bkcvt ⟨9, 10, 11, .global, false, true, 0⟩) = false ∧
    Instr.wf (.bkred ⟨9, 10, 11, .global, false, false, 2⟩) = false ∧
    Instr.wf (.send 9 10 12 none false) = false ∧ Instr.wf (.send 9 10 11 none true) = false ∧
    Instr.wf (.recv 9 10 true false) = false ∧ Instr.wf (.recv 0 10 true false) = false ∧
    Instr.wf (.recv 12 10 false false) = false := by decide

theorem test_illFormed_arithmetic :
    Instr.wf (.shli 9 10 ⟨64, none⟩) = false ∧ Instr.wf (.shri 9 10 ⟨0, some 1⟩) = false ∧
    Instr.wf (.srai 9 10 ⟨0x7FF, none⟩) = false ∧ Instr.wf (.fcmp 9 10 11 5) = false ∧
    Instr.wf (.fcvt 9 10 0 .rne true) = false ∧ Instr.wf (.fcvt 9 10 5 .rtz false) = false := by decide

theorem test_illFormed_vectors :
    Instr.wf (.vadd ⟨1, 2, 3, .i8, 0, 2⟩) = false ∧ Instr.wf (.vsub ⟨1, 2, 3, .f32, 0, 1⟩) = false ∧
    Instr.wf (.vmul ⟨1, 2, 3, .i8, 0, 5⟩) = false ∧ Instr.wf (.vfma ⟨1, 2, 3, .i8, 0, 4⟩) = false ∧
    Instr.wf (.vmin ⟨1, 2, 3, .i8, 0, 1⟩) = false ∧ Instr.wf (.vmax ⟨1, 2, 3, .f16, 0, 2⟩) = false ∧
    Instr.wf (.vabs ⟨1, 2, 3, .i8, 0, 0⟩) = false ∧ Instr.wf (.vand ⟨1, 2, 3, .i8, 0, 1⟩) = false ∧
    Instr.wf (.vor ⟨1, 2, 3, .i8, 0, 1⟩) = false ∧ Instr.wf (.vxor ⟨1, 2, 3, .i8, 0, 1⟩) = false ∧
    Instr.wf (.vshl ⟨1, 2, 3, .f32, 0, 0⟩) = false ∧ Instr.wf (.vshr ⟨1, 2, 3, .i8, 0, 1⟩) = false ∧
    Instr.wf (.vcmp ⟨1, 2, 3, .i8, 0, 3⟩) = false ∧ Instr.wf (.vcmp ⟨1, 2, 3, .f32, 0, 5⟩) = false ∧
    Instr.wf (.vsel ⟨1, 2, 3, .i8, 0, 1⟩) = false ∧ Instr.wf (.vbcast ⟨1, 2, .i8, 0, 1⟩) = false ∧
    Instr.wf (.vins ⟨1, 2, .i64, 8⟩) = false ∧ Instr.wf (.vext ⟨1, 2, .f32, 16⟩) = false ∧
    Instr.wf (.vredadd ⟨1, 2, .f32, 0, 1⟩) = false ∧ Instr.wf (.vredmax ⟨1, 2, .i8, 0, 2⟩) = false ∧
    Instr.wf (.vperm ⟨1, 2, 3, .i8, 0, 1⟩) = false ∧ Instr.wf (.vcvt ⟨1, 2, 0, .f32, 0, 5⟩) = false ∧
    Instr.wf (.vcvt ⟨1, 2, 0, .f32, 0, 7⟩) = false ∧ Instr.wf (.vcvt ⟨1, 2, 2, .f32, 0, 3⟩) = false ∧
    Instr.wf (.vexp2 ⟨1, 2, 0, .f16, 0, 0⟩) = false ∧ Instr.wf (.vrcp ⟨1, 2, 1, .f32, 0, 0⟩) = false ∧
    Instr.wf (.vdot4 ⟨1, 2, 3, .i8, 0, 3⟩) = false ∧ Instr.wf (.vaddsub ⟨1, 2, 3, .i64, 0, 0⟩) = false ∧
    Instr.wf (.mop ⟨1, 2, 3, .i8, 6⟩) = false ∧ Instr.wf (.mop ⟨1, 2, 3, .i8, 4⟩) = false ∧
    Instr.wf (.unpk3 ⟨1, 2, 0, .i8, 0, 5⟩) = false ∧ Instr.wf (.unpk4 ⟨1, 2, 0, .i8, 0, 2⟩) = false ∧
    Instr.wf (.unpki3 ⟨1, 2, 0, .i16, 0, 0⟩) = false := by decide

/-! ### One instruction on a small state: a context that runs in slot 0 of core 0 -/

/-- A state with one running context, and no step due. -/
def small (f : Ctx → Ctx) : State :=
  { State.reset with
    agenda := []
    ctxs := [(0, f { Ctx.initial with st := .running, slot := some 0, pc := 0x1000, prv := true })] }

/-- Scalar registers set before an instruction. -/
def withS (rs : List (SReg × Word)) (c : Ctx) : Ctx := { c with s := rs.foldl (fun s r => s.set r.1 r.2) c.s }

/-- The context after one instruction. -/
def after (i : Instr) (s : State) : Option Ctx :=
  match exec i s with
  | .next t => some (t.ctx s.cur)
  | _ => none

/-- A scalar register's value, or the one that it is pending for. -/
def scalarOf (c : Ctx) (d : SReg) : Nat :=
  match c.pend.find? fun p => p.reg == .s d with
  | some ⟨_, .result _ v⟩ => v
  | _ => (c.getS d).toNat

/-- What an instruction leaves in s9 from s10 and s11. -/
def gives (i : Instr) (x y : Word) : Option Nat := (after i (small (withS [(10, x), (11, y)]))).map fun c => scalarOf c 9

/-- R201 to R204, the table of edge results. -/
theorem test_integer_edges :
    gives (.div false 9 10 11) 7 0 = some 0xFFFFFFFFFFFFFFFF ∧ gives (.divu false 9 10 11) 7 0 = some 0xFFFFFFFFFFFFFFFF ∧
    gives (.rem false 9 10 11) (-7) 2 = some 0xFFFFFFFFFFFFFFFF ∧ gives (.rem false 9 10 11) 7 (-2) = some 1 ∧
    gives (.div true 9 10 11) 0x180000000 0xFFFFFFFF = some 0xFFFFFFFF80000000 ∧
    gives (.remu true 9 10 11) 0x100000005 0 = some 5 ∧ gives (.add true 9 10 11) 0x7FFFFFFF 1 = some 0xFFFFFFFF80000000 ∧
    gives (.sra 9 10 11) 0x8000000000000000 65 = some 0xC000000000000000 ∧
    gives (.bfx 9 10 11 true) 0xE30 0x0408 = some 0xFFFFFFFFFFFFFFFE ∧ gives (.bfx 9 10 11 false) 0xE30 0x40C3C = some 0 ∧
    gives (.mulh 9 10 11) 0x8000000000000000 2 = some 0xFFFFFFFFFFFFFFFF := by decide

/-- R204: the two halves of 0x0123_4567_89AB_CDEF. -/
theorem test_lui_and_ori_build_a_constant :
    gives (.lui 9 ⟨0xE26A, some 0x48D159⟩) 0 0 = some 0x0123456789A80000 ∧
    gives (.ori 9 10 ⟨0x5EF, some 0x79⟩) 0x0123456789A80000 0 = some 0x0123456789ABCDEF := by decide

/-- R202: an insertion that is cut at bit 63 leaves the bits below. -/
theorem test_bfi_keeps_the_rest : gives (.bfi 9 10 11) 0xFF 0x083C = some 0xF000000000000000 := by decide

/-- R201: the multiplication of unsigned halves, the counts and the comparisons. -/
theorem test_integer_more :
    gives (.mulhu 9 10 11) 0x8000000000000000 2 = some 1 ∧ gives (.mul true 9 10 11) 0x10000 0x8000 = some 0xFFFFFFFF80000000 ∧
    gives (.sub false 9 10 11) 0 1 = some 0xFFFFFFFFFFFFFFFF ∧ gives (.andn 9 10 11) 0xFF 0x0F = some 0xF0 ∧
    gives (.clz 9 10) 0 0 = some 64 ∧ gives (.ctz 9 10) 0x8000000000000000 0 = some 63 ∧ gives (.popc 9 10) 0xF0F0 0 = some 8 ∧
    gives (.cmplt 9 10 11) (-1) 0 = some 1 ∧ gives (.cmpltu 9 10 11) (-1) 0 = some 0 ∧
    gives (.minu 9 10 11) (-1) 3 = some 3 ∧ gives (.max 9 10 11) (-1) 3 = some 3 ∧
    gives (.shli 9 10 ⟨63, none⟩) 3 0 = some 0x8000000000000000 ∧ gives (.addi 9 10 ⟨0x7FF, none⟩) 0 0 = some 0xFFFFFFFFFFFFFFFF := by
  decide

/-- R206, the table. -/
theorem test_fmin_fmax :
    gives (.fmin 9 10 11) 0 0x80000000 = some 0x80000000 ∧ gives (.fmax 9 10 11) 0 0x80000000 = some 0 ∧
    gives (.fmin 9 10 11) 0x7FA00000 0x3F800000 = some 0x3F800000 ∧ gives (.fmax 9 10 11) 0x7FA00000 0x3F800000 = some 0x3F800000 ∧
    gives (.fmin 9 10 11) 0xFFC00001 0x7F800001 = some 0x7FC00000 ∧ gives (.fmax 9 10 11) 1 0x80000001 = some 1 := by decide

/-- R208, the table. -/
theorem test_fcvt :
    gives (.fcvt 9 10 0 .rne false) 0x40200000 0 = some 2 ∧ gives (.fcvt 9 10 0 .rup false) 0x40200000 0 = some 3 ∧
    gives (.fcvt 9 10 0 .rdn false) 0xC0200000 0 = some 0xFFFFFFFFFFFFFFFD ∧
    gives (.fcvt 9 10 1 .rne false) 0x50C00000 0 = some 0x7FFFFFFF ∧ gives (.fcvt 9 10 1 .rtz false) 0x7FC00000 0 = some 0 ∧
    gives (.fcvt 9 10 3 .rne false) 0x01000001 0 = some 0x4B800000 ∧ gives (.fcvt 9 10 3 .rup false) 0x01000001 0 = some 0x4B800001 ∧
    gives (.fcvt 9 10 4 .rne false) 0x3F808000 0 = some 0x3F80 ∧ gives (.fcvt 9 10 4 .rne false) 0x3F818000 0 = some 0x3F82 ∧
    gives (.fcvt 9 10 6 .rne false) 0x477FF000 0 = some 0x7C00 ∧ gives (.fcvt 9 10 6 .rne true) 0x477FF000 0 = some 0x7BFF := by
  decide

/-- R205, R207, R209: arithmetic by hand (1 + 2 = 3, 1 − 1 = +0, 1/2, √4), the predicates of a NaN, the classes. -/
theorem test_float :
    gives (.fadd 9 10 11) 0x3F800000 0x40000000 = some 0x40400000 ∧ gives (.fsub 9 10 11) 0x3F800000 0x3F800000 = some 0 ∧
    gives (.fmul 9 10 11) 0x7F800000 0 = some 0x7FC00000 ∧ gives (.fdiv 9 10 11) 0x3F800000 0x40000000 = some 0x3F000000 ∧
    gives (.fsqrt 9 10) 0x40800000 0 = some 0x40000000 ∧ gives (.ffma 9 10 11 10) 0x40000000 0x40400000 = some 0x41000000 ∧
    gives (.fcmp 9 10 11 4) 0x7FC00000 0 = some 1 ∧ gives (.fcmp 9 10 11 0) 0x80000000 0 = some 1 ∧
    gives (.fclass 9 10) 0xFF800000 0 = some 1 ∧ gives (.fclass 9 10) 0x7FA00000 0 = some 0x200 := by decide

/-- R375, R376: MTC WDOG writes COUNT and LIMIT. -/
theorem test_mtc_wdog :
    (after (.mtc 0x022 10) (small (withS [(10, 0x7_0000_0005)]))).map (fun c => (c.wcount, c.wlimit)) = some (5, 7) := by decide

/-- A vector from its lanes of w bits, lane 0 first. -/
def lanesVec (w : Nat) (ls : List Nat) : Vec := BitVec.ofNat 512 (ls.foldr (fun x r => x + r * 2 ^ w) 0)

/-- Vector registers set before an instruction. -/
def withV (rs : List (VReg × Vec)) (c : Ctx) : Ctx := { c with v := rs.foldl (fun v r => v.set r.1 r.2) c.v }

/-- A vector register, or the value that it is pending for. -/
def vectorOf (c : Ctx) (d : VReg) : Vec :=
  match c.pend.find? fun p => p.reg == .v d with
  | some ⟨_, .result _ v⟩ => BitVec.ofNat 512 v
  | _ => c.getV d

/-- The first n lanes of v1 that an instruction leaves from v1, v2 and v3 and from m1. -/
def lanesAfter (i : Instr) (w n : Nat) (x y z : List Nat) (m : Word) (f : Ctx → Ctx) : Option (List Nat) :=
  (after i (small fun c => f { withV [(1, lanesVec w z), (2, lanesVec w x), (3, lanesVec w y)] c with m := c.m.set 1 m })).map
    fun c => (List.range n).map (lane w (vectorOf c 1))

/-- R225, R223: wrapping, saturation and the mask; the high half of a product; a FP32 sum. -/
theorem test_vector_integer :
    lanesAfter (.vadd ⟨1, 2, 3, .i8, 1, 0⟩) 8 3 [100, 200, 1] [100, 100, 1] [7, 7, 7] 3 id = some [200, 44, 7] ∧
    lanesAfter (.vadd ⟨1, 2, 3, .i8, 0, 1⟩) 8 2 [100, 128] [100, 128] [] 0 id = some [127, 128] ∧
    lanesAfter (.vsub ⟨1, 2, 3, .i8, 0, 3⟩) 8 1 [5] [6] [] 0 id = some [0] ∧
    lanesAfter (.vmul ⟨1, 2, 3, .i16, 0, 4⟩) 16 1 [0x8000] [2] [] 0 id = some [0xFFFF] ∧
    lanesAfter (.vfma ⟨1, 2, 3, .i32, 0, 0⟩) 32 1 [3] [5] [7] 0 id = some [22] ∧
    lanesAfter (.vabs ⟨1, 2, 0, .i16, 0, 1⟩) 16 1 [0x8000] [] [] 0 id = some [0x7FFF] ∧
    lanesAfter (.vshr ⟨1, 2, 3, .i32, 0, 0⟩) 32 1 [0x80000000] [33] [] 0 id = some [0xC0000000] ∧
    lanesAfter (.vperm ⟨1, 2, 3, .i64, 0, 0⟩) 64 2 [10, 20, 30] [2, 9] [] 0 id = some [30, 20] ∧
    lanesAfter (.vsel ⟨1, 2, 3, .i32, 1, 0⟩) 32 2 [1, 2] [3, 4] [] 2 id = some [3, 2] := by decide +kernel

/-- R233, the example: 70,000 and −0.75 narrowed to FP16 in part 1. -/
theorem test_vcvt_narrows :
    (lanesAfter (.vcvt ⟨1, 2, 1, .f16, 0, 8 + 5⟩) 16 18 [0x8800, 0x4788, 0, 0xBF40] [] [1, 2] 0 id).map (·.drop 16) =
      some [0x7BFF, 0xBA00] ∧
    lanesAfter (.vcvt ⟨1, 2, 1, .f16, 0, 5⟩) 16 18 [0x8800, 0x4788, 0, 0xBF40] [] [1, 2] 0 id =
      some ([1, 2] ++ List.replicate 14 0 ++ [0x7C00, 0xBA00]) ∧
    (lanesAfter (.vcvt ⟨1, 2, 1, .f16, 0, 5⟩) 16 17 [0x8800, 0x4788, 0, 0xBF40] [] [1, 2] 0
      fun c => { c with tfmt := 0x1000 }).map (·.drop 16) = some [0x7BFF] := by decide +kernel

/-- R236, the example; R235: a dot product of INT4 values that saturates. -/
theorem test_vaddsub_and_vdot4 :
    lanesAfter (.vaddsub ⟨1, 2, 3, .i8, 0, 0⟩) 8 5 [100, 128, 7, 5] [1, 255, 0, 255] [10] 0 id = some [233, 0, 0, 0, 0] ∧
    lanesAfter (.vdot4 ⟨1, 2, 3, .i8, 0, 1⟩) 8 4 [2, 3, 0, 0] [0xF7] [1] 0 id = some [12, 0, 0, 0] := by decide +kernel

/-- R237, the example: five trits of 0xC4, an illegal byte recorded in m1. -/
theorem test_unpk3 :
    lanesAfter (.unpk3 ⟨1, 2, 0, .i8, 1, 0⟩) 8 10 ([0xC4, 0xF7] ++ List.replicate 10 0x79) [] [] 0 id =
      some [1, 0, 255, 1, 0, 0, 0, 0, 0, 0] ∧
    (after (.unpk3 ⟨1, 2, 0, .i8, 1, 0⟩) (small (withV [(2, lanesVec 8 ([0xC4, 0xF7] ++ List.replicate 10 0x79))]))).map
      (fun c => c.getM 1) = some 2 := by decide +kernel

/-- R239, the example; R238: the second half of INT4 elements. -/
theorem test_unpki3_and_unpk4 :
    lanesAfter (.unpki3 ⟨1, 2, 0, .i8, 0, 0⟩) 8 8 [0x39, 0x46, 0x19] [] [] 0 id = some [1, 255, 0, 3, 252, 2, 254, 0] ∧
    lanesAfter (.unpk4 ⟨1, 2, 0, .i8, 0, 1⟩) 8 2 (List.replicate 32 0 ++ [0x7F]) [] [] 0 id = some [255, 7] := by decide +kernel

/-- R226, R228, R231: masks and reductions. -/
theorem test_masks_and_reductions :
    (after (.vcmp ⟨2, 2, 3, .i32, 0, 1⟩) (small (withV [(2, lanesVec 32 [1, 5]), (3, lanesVec 32 [2, 4])]))).map
      (fun c => c.getM 2) = some 1 ∧
    (after (.mop ⟨2, 1, 3, .i32, 4⟩) (small fun c => { c with m := c.m.set 1 0xFF00 })).map (fun c => c.getM 2) = some 0x00FF ∧
    (after (.vredadd ⟨2, 9, .i8, 0, 0⟩) (small (withV [(2, lanesVec 8 [127, 3, 255])]))).map (fun c => scalarOf c 9) = some 129 ∧
    (after (.vredmax ⟨2, 9, .i8, 0, 1⟩) (small (withV [(2, lanesVec 8 [127, 3, 255])]))).map (fun c => scalarOf c 9) = some 255 ∧
    (after (.vext ⟨2, 9, .i16, 1⟩) (small (withV [(2, lanesVec 16 [1, 0x8000])]))).map (fun c => scalarOf c 9) = some 0xFFFFFFFFFFFF8000 := by
  decide +kernel

/-- R234: exp2 of 3 and of 1/2 (0x3FB504F3 is √2 to nearest), and 1/3. -/
theorem test_exp2_and_rcp :
    lanesAfter (.vexp2 ⟨1, 2, 0, .f32, 0, 0⟩) 32 2 [0x40400000, 0x3F000000] [] [] 0 id = some [0x41000000, 0x3FB504F3] ∧
    lanesAfter (.vrcp ⟨1, 2, 0, .f32, 0, 0⟩) 32 1 [0x40400000] [] [] 0 id = some [0x3EAAAAAB] := by decide +kernel

/-- The record of a quad with Λ, η, header and identities. -/
def record (lam : List (Nat × Nat)) (eta : List Nat) (head : Nat) (ids : List Nat) : List Nat :=
  (List.range 64).map fun l =>
    if l < 49 then ((lam.find? fun x => x.1 == l).map (·.2)).getD 0
    else if l < 56 then eta.getD (l - 49) 0
    else if l = 56 then head
    else ids.getD (l - 57) 0xFFFFFFFF

/-- A quad set before an instruction. -/
def withQ (q : Nat) (r : List Nat) (c : Ctx) : Ctx :=
  withV ((List.range 4).map fun k => (Fin.ofNat 16 (4 * q + k), lanesVec 32 ((r.drop (16 * k)).take 16))) c

/-- The 64 lanes of a quad, or the ones that it is pending for. -/
def quadOf (q : Nat) (c : Ctx) : List Nat :=
  (List.range 64).map fun l => lane 32 (vectorOf c (Fin.ofNat 16 (4 * q + l / 16))) (l % 16)

/-- The factor record and the message of the worked elimination. -/
def factorRec : List Nat := record [(0, 0x40400000), (1, 0x40000000), (7, 0x40000000), (8, 0x40000000)] [0x3F800000, 0x40400000] 0x50002 [10, 11]
def messageRec : List Nat := record [(0, 0x3F800000)] [0x3F800000] 1 [10]
/-- Their sum, and what is left when variable 10 is eliminated. -/
def sumRec : List Nat := record [(0, 0x40800000), (1, 0x40000000), (7, 0x40000000), (8, 0x40000000)] [0x40000000, 0x40400000] 0x50002 [10, 11]
def marginRec : List Nat := record [(0, 0x3F800000)] [0x40000000] 0x50001 [11]

/-- The worked elimination under R400: GADD, GELIM and GMEAN. -/
theorem test_worked_elimination :
    (after (.gadd 2 0 1 false) (small fun c => withQ 0 factorRec (withQ 1 messageRec c))).map (quadOf 2) = some sumRec ∧
    (after (.gelim 3 2 2) (small (withQ 2 sumRec))).map (quadOf 3) = some marginRec ∧
    (after (.gmean 3 3) (small (withQ 3 marginRec))).map (quadOf 3) = some marginRec := by decide +kernel

/-- The same with TOL = 8.0: SINGULAR_BLOCK, TVAL the pivot's code, g3 kept. -/
theorem test_singular_pivot_traps :
    (after (.gelim 3 2 2) (small fun c => withQ 2 sumRec { c with gtol := 0x41000000, tvecS := 0x2000 })).map
      (fun c => (c.tcause.toNat % 256, c.tval, quadOf 3 c == quadOf 3 Ctx.initial)) =
      some (Cause.singularBlock, 0x40800000, true) := by decide +kernel

/-- R397, R395, R396: the residual of two messages, a restatement, a blend with DAMP 0. -/
theorem test_messages :
    (after (.gres 9 0 1) (small fun c => withQ 0 sumRec (withQ 1 factorRec c))).map (fun c => scalarOf c 9) = some 0x3F800000 ∧
    (after (.gext 2 1 0) (small fun c => withQ 0 factorRec (withQ 1 messageRec c))).map (quadOf 2) =
      some (record [(0, 0x3F800000)] [0x3F800000] 2 [10, 11]) ∧
    (after (.gdamp 2 0 1) (small fun c => withQ 0 factorRec (withQ 1 sumRec c))).map (quadOf 2) = some factorRec := by decide +kernel

/-! ### Witnesses: a state and operands that meet the hypotheses of each statement, clause by clause -/

theorem clear_of {c : Ctx} {rs : List RegName} (h : c.pend = []) : c.Clear rs := by
  intro p hp
  rw [h] at hp
  cases hp

theorem ready_of {s : State} {i : Instr} (h : (s.ctx s.cur).pend = []) (t : s.bun.tail = none) : s.HeadReady i Effect.none :=
  ⟨clear_of h, by rw [t]; rfl⟩

theorem unmarked_of {s : State} (h : s.bun.marker = false) : s.Unmarked := .inl h

/-- The value of a computation that succeeds. -/
def okOf {ε α : Type} (x : Except ε α) : Option α :=
  match x with
  | .ok a => some a
  | .error _ => none

/-- The error of one that fails. -/
def errOf {ε α : Type} (x : Except ε α) : Option ε :=
  match x with
  | .ok _ => none
  | .error e => some e

theorem ok_eq {ε α : Type} {x : Except ε α} {a : α} (h : okOf x = some a) : x = .ok a := by
  cases x
  · cases h
  · exact congrArg _ (Option.some.inj h)

theorem ok_of {ε α : Type} {x : Except ε α} (h : (okOf x).isSome = true) : ∃ a, x = .ok a := by
  cases x
  · cases h
  · exact ⟨_, rfl⟩

theorem error_of {ε α : Type} {x : Except ε α} {e : ε} (h : errOf x = some e) : x = .error e := by
  cases x
  · exact congrArg _ (Option.some.inj h)
  · cases h

/-- The quads of the worked elimination. -/
def gaussState : State := small fun c => withQ 0 factorRec (withQ 1 messageRec (withQ 2 sumRec c))

theorem witness_ScalarResults :
    (∃ (s : State) (i : Instr) (d : SReg) (x : Word) (l : Nat), intResult i (s.ctx s.cur) = some (d, x, l) ∧ s.ClearFor i ∧ s.Unmarked) ∧
    ∃ (s : State) (i : Instr) (d : SReg) (x : Word) (l : Nat), floatResult i (s.ctx s.cur) = some (d, x, l) ∧ s.ClearFor i ∧ s.Unmarked :=
  ⟨⟨small id, .div false 9 10 11, 9, _, 36, rfl, clear_of rfl, unmarked_of rfl⟩,
    small id, .fsqrt 9 10, 9, _, 28, rfl, clear_of rfl, unmarked_of rfl⟩

theorem witness_SelectTakesEveryLane :
    ∃ (s : State) (o : VArgs), s.ClearFor (.vsel o) ∧ s.Unmarked ∧ o.vd ≠ o.va ∧ o.vd ≠ o.vb :=
  ⟨small id, ⟨1, 2, 3, .f32, 2, 0⟩, clear_of rfl, unmarked_of rfl, by decide, by decide⟩

theorem witness_VectorLaneResults :
    ∃ (s : State) (i : Instr) (d : VReg) (w l : Nat) (f : Nat → Nat), vecResult i (s.ctx s.cur) = some (d, w, l, f) ∧
      s.ClearFor i ∧ s.Unmarked :=
  ⟨small id, .vadd ⟨1, 2, 3, .i8, 0, 0⟩, 1, 8, 0, _, rfl, clear_of rfl, unmarked_of rfl⟩

theorem witness_MaskScalarAndUnpackResults :
    (∃ (s : State) (i : Instr) (d : MReg) (n : Nat) (f : Nat → Bool), maskResult i (s.ctx s.cur) = some (d, n, f) ∧
      s.ClearFor i ∧ s.Unmarked) ∧
    (∃ (s : State) (i : Instr) (d : SReg) (x : Word) (l : Nat), reduceResult i (s.ctx s.cur) = some (d, x, l) ∧
      s.ClearFor i ∧ s.Unmarked) ∧
    ∃ (s : State) (o : VArgs), s.ClearFor (.unpk3 o) ∧ s.Unmarked :=
  ⟨⟨small id, .mop ⟨2, 1, 3, .i32, 4⟩, 2, _, _, rfl, clear_of rfl, unmarked_of rfl⟩,
    ⟨small id, .vredmax ⟨2, 9, .f32, 0, 0⟩, 9, _, _, rfl, clear_of rfl, unmarked_of rfl⟩,
    small id, ⟨1, 2, 0, .i8, 1, 0⟩, clear_of rfl, unmarked_of rfl⟩

theorem witness_GaussianMessagesCombine :
    let s := gaussState
    let r := recOf (s.ctx s.cur)
    s.Unmarked ∧ (r 0).ok = true ∧ (r 1).ok = true ∧ (r 2).ok = true ∧
      (s.ClearFor (.gadd 2 0 1 true) ∧ (mergeIds 14 ((r 0).ids.take (r 0).n) ((r 1).ids.take (r 1).n)).length ≤ 7) ∧
      (s.ClearFor (.gext 2 1 0) ∧ ∀ x ∈ (r 1).ids.take (r 1).n, x ∈ (r 0).ids.take (r 0).n) ∧
      (s.ClearFor (.gdamp 2 0 2) ∧ (r 0).ids.take (r 0).n = (r 2).ids.take (r 2).n) :=
  ⟨unmarked_of rfl, by decide +kernel, by decide +kernel, by decide +kernel,
    ⟨clear_of rfl, by decide +kernel⟩, ⟨clear_of rfl, by decide +kernel⟩, ⟨clear_of rfl, by decide +kernel⟩⟩

theorem witness_GaussianBlocksSolve :
    (let s := gaussState
     let c := s.ctx s.cur
     let a := recOf c 0
     let b := recOf c 2
     a.ok = true ∧ s.Unmarked ∧ (b.ok = true ∧ a.ids.take a.n = b.ids.take b.n ∧ s.ClearFor (.gres 9 0 2)) ∧
      (s.ClearFor (.gelim 3 0 2) ∧ ∃ x, Block.steps c.gtol.toNat (elimPlan a.n 2) a.block = .ok x) ∧
      (s.ClearFor (.gmean 3 0) ∧ ∃ x, Block.steps c.gtol.toNat (meanPlan a.n) a.block = .ok x)) ∧
    (let s := small (withQ 0 (record [] [] 8 []))
     s.ClearFor (.gelim 3 0 2) ∧ (recOf (s.ctx s.cur) 0).ok = false) ∧
    (let s := small fun c => withQ 0 sumRec { c with gtol := 0x41000000 }
     let c := s.ctx s.cur
     let a := recOf c 0
     s.ClearFor (.gelim 3 0 2) ∧ a.ok = true ∧ Block.steps c.gtol.toNat (elimPlan a.n 2) a.block = .error (0x40800000, 0) ∧
      Block.steps c.gtol.toNat (meanPlan a.n) a.block = .error (0x40800000, 0)) :=
  ⟨⟨by decide +kernel, unmarked_of rfl, ⟨by decide +kernel, by decide +kernel, clear_of rfl⟩,
      ⟨clear_of rfl, ok_of (by decide +kernel)⟩, clear_of rfl, ok_of (by decide +kernel)⟩,
    ⟨clear_of rfl, by decide +kernel⟩,
    clear_of rfl, by decide +kernel, error_of (by decide +kernel), error_of (by decide +kernel)⟩

/-- A bundle in issue with a tail. -/
def withTail (s : State) (t : Instr) : State := { s with bun := ⟨false, .nopc, some t⟩, blen := 2 }

theorem witness_TailTakesEffectWithHead :
    (∃ (s : State) (e : Effect), s.HeadReady .nopc e ∧ s.Unmarked) ∧
    (∃ (s : State) (i : Instr) (e : Effect), isArith i = true ∧ s.ClearFor i ∧ effectOf i (s.ctx s.cur) = .ok e ∧ s.Unmarked) ∧
    ∃ (s : State) (i : Instr) (x : Trap), isArith i = true ∧ s.ClearFor i ∧ effectOf i (s.ctx s.cur) = .error x ∧
      s.bun.tail = some i ∧ (s.ctx s.cur).Clear (bundleReads .nopc s.bun.tail ++ bundleWrites .nopc s.bun.tail) :=
  ⟨⟨withTail (small id) (.add false 9 10 11), _, ⟨clear_of rfl, rfl⟩, unmarked_of rfl⟩,
    ⟨small id, .add false 9 10 11, _, rfl, clear_of rfl, rfl, unmarked_of rfl⟩,
    withTail (small fun c => withQ 0 sumRec { c with gtol := 0x41000000 }) (.gelim 3 0 2), .gelim 3 0 2, (Cause.singularBlock, 0x40800000),
    rfl, clear_of rfl, error_of (by decide +kernel), rfl, clear_of rfl⟩

/-- A context with one pending register. -/
def pendingS9 : State := small fun c => { c with pend := [⟨.s 9, .result 40 0⟩] }

theorem witness_PendingRegistersTrap :
    (∃ r : RegName, (∃ p ∈ (pendingS9.ctx pendingS9.cur).pend, p.reg = r) ∧ isArith (.add false 10 9 11) = true ∧
      r ∈ (Instr.add false 10 9 11).reads ∧
      ∀ q ∈ (Instr.add false 10 9 11).reads, (∃ p ∈ (pendingS9.ctx pendingS9.cur).pend, p.reg = q) → r.code ≤ q.code) ∧
    ∃ r : RegName, (∃ p ∈ (pendingS9.ctx pendingS9.cur).pend, p.reg = r) ∧
      (pendingS9.ctx pendingS9.cur).Clear (Instr.add false 9 10 11).reads ∧ r ∈ (Instr.add false 9 10 11).writes ∧
      ∀ q ∈ (Instr.add false 9 10 11).writes, (∃ p ∈ (pendingS9.ctx pendingS9.cur).pend, p.reg = q) → r.code ≤ q.code :=
  ⟨⟨.s 9, by decide, by decide, by decide, by decide⟩, .s 9, by decide, by unfold Ctx.Clear; decide, by decide, by decide⟩

/-- A load that reads s9. -/
def loadBy9 : Instr := .ldd ⟨10, 9, .own, false, ⟨0, none⟩⟩

theorem witness_PendingRegistersTrap_heads :
    (isHead loadBy9 = true ∧ pendingS9.ReachesPending loadBy9 ∧
      RegName.s 9 ∈ bundleReads loadBy9 none ++ (pendingS9.ctx pendingS9.cur).impliedReads loadBy9) ∧
    isHead (.mfc 9 0x030) = true ∧ pendingS9.ReachesPending (.mfc 9 0x030) ∧
      (pendingS9.ctx pendingS9.cur).Clear
        (bundleReads (.mfc 9 0x030) none ++ (pendingS9.ctx pendingS9.cur).impliedReads (.mfc 9 0x030)) ∧
      RegName.s 9 ∈ bundleWrites (.mfc 9 0x030) none := by
  refine ⟨⟨rfl, ⟨?_, ?_, ?_, ?_, ?_⟩, by decide⟩, rfl, ⟨?_, ?_, ?_, ?_, ?_⟩, ?_, by decide⟩
  · intro r h; cases h; exact ⟨by decide, by decide⟩
  · intro n h; cases h; decide
  · intro h; cases h
  · rintro n ⟨d, h⟩; cases h
  · rintro n ⟨d, h⟩; cases h
  · intro r h; cases h
  · intro n h; cases h
  · intro h; cases h
  · rintro n ⟨d, h⟩; cases h; decide
  · rintro n ⟨d, h⟩; cases h
  · unfold Ctx.Clear; decide

/-- A state whose core 0 has the words of sector 0x1000 in its instruction cache. -/
def codeState (ws : List Nat) (f : Ctx → Ctx) : State :=
  { small f with cores := [(0, { Core.initial with l1i := [⟨0x1000, lanesVec 32 ws⟩] })] }

/-- Lone NOPC words. -/
def nops : List Nat := List.replicate 16 0x40000000

theorem witness_ControlFlowCompletes :
    (∃ (s : State) (i : Instr) (e : Effect) (byReg : Bool) (target : Word) (ws : List RegWrite),
      flowOf i s = some (false, target, byReg, ws) ∧ s.HeadReady i e ∧ s.Unmarked) ∧
    ∃ (s : State) (i : Instr) (e : Effect) (byReg : Bool) (target : Word) (ws : List RegWrite),
      flowOf i s = some (true, target, byReg, ws) ∧ s.HeadReady i e ∧ s.Unmarked ∧
        s.TargetOk s.cur byReg (s.ctx s.cur).prv target :=
  ⟨⟨small id, .nopc, Effect.none, false, 0, [], rfl, ready_of rfl rfl, unmarked_of rfl⟩,
    codeState nops (withS [(10, 0x1014)]), .callr 10 ⟨0, none⟩, Effect.none, true, 0x1014, _, rfl, ready_of rfl rfl, unmarked_of rfl,
    by decide +kernel, by decide +kernel, by decide +kernel,
    ⟨0x1000, lanesVec 32 nops⟩, by decide +kernel, by decide +kernel, by decide +kernel, by decide +kernel⟩

/-- A transfer by register to an address, as a user without rights or as supervisor. -/
def jumpTo (ws : List Nat) (prv : Bool) (t : Word) : State := codeState ws fun c => withS [(10, t)] { c with prv := prv }

/-- A context whose transfer by register to an address has issued and is to be fetched. -/
def fetching (ws : List Nat) (prv : Bool) (a : Word) : State :=
  codeState ws fun c =>
    { c with
      pc := a, prv := prv
      undo := some ⟨⟨a, Effect.none, true, false, ⟨0x1000, 0, ⟨false, .jr 10 ⟨0, none⟩, none⟩, [], [], []⟩⟩, 0, 0x1000, [], false, prv, false,
        false, false, false, 0, [], 0⟩ }

/-- What the fetch finds at a target. -/
def targetWord (s : State) (a : Word) : Option Code :=
  (cacheFind (s.core (s.at s.arg.who)).l1i a.toNat).map fun x => sectorWord x.data a.toNat

/-- The context of FETCH stands as the checks of a transfer's target need it. -/
def atFetch (s : State) (a : Word) : Bool :=
  let c := s.ctx s.arg.who
  (c.undo.map fun u => (u.xfer.target, u.xfer.byReg, u.xfer.rft)) == some (a, true, false) && decide (c.st = .running) && decide (c.latch = none) &&
    c.fills.isEmpty && decide (c.trap = none) && c.kill.isNone && decide (c.wait ≠ .drain)

theorem witness_TransferTargetsAreChecked :
    (let s := jumpTo nops true 0x1004
     flowOf (.jr 10 ⟨0, none⟩) s = some (true, 0x1004, true, []) ∧ s.HeadReady (.jr 10 ⟨0, none⟩) Effect.none) ∧
    (atFetch (fetching nops true 0x1000000000000000) 0x1000000000000000 = true ∧ bits (0x1000000000000000 : Word) 63 56 ≠ 0) ∧
    (atFetch (fetching nops true 0x1002) 0x1002 = true ∧ (0x1002 : Word).toNat % 4 ≠ 0) ∧
    (let s := fetching nops false 0x1004
     atFetch s 0x1004 = true ∧ ¬ ((s.ctx 0).prv = true ∨ Rights.cover (s.plbRights (s.at 0) (s.ctx 0).domain 0x1004) 4 = true)) ∧
    (let s := fetching nops true 0x2000
     atFetch s 0x2000 = true ∧ targetWord s 0x2000 = none) ∧
    (let s := fetching [0x40000000, 0x80000000] true 0x1004
     atFetch s 0x1004 = true ∧ (targetWord s 0x1004).map Code.cls = some 2) ∧
    (let s := fetching [0x40000000, 0, 0x90000000] true 0x1004
     atFetch s 0x1004 = true ∧ (targetWord s 0x1004).map Code.cls = some 0 ∧ 0x1004 % 8 ≠ 0) :=
  ⟨⟨by decide +kernel, ready_of rfl rfl⟩, ⟨by decide, by decide⟩, ⟨by decide, by decide⟩, ⟨by decide, by decide +kernel⟩,
    ⟨by decide, by decide +kernel⟩, ⟨by decide, by decide +kernel⟩, by decide, by decide +kernel, by decide⟩

/-- A partition 1 with cluster 0 and domains 0 to 3. -/
def part1 : Map Partition := [(1, { Partition.initial with enable := true, clusters := 1, domCount := 4 })]

/-- A user's context in the partition. -/
def userState : State := { small (fun c => { c with prv := false }) with parts := part1 }

/-- The word is one of MFC (or MTC) with nothing in its reserved field. -/
def isS (w : Code) (op : Nat) (reserved : Bool) : Bool :=
  Code.cls w == 1 && !Code.side w && Code.opc w == op && ((w.extractLsb' 12 4 == 0) != reserved)

theorem witness_ControlRegistersReadAndWrite :
    (∃ (s : State) (d : SReg) (num : BitVec 12) (e : Effect), s.HeadReady (.mfc d num) e ∧ s.Unmarked ∧
      ∃ a, ctlAccess num.toNat (s.ctx s.cur).uh = some a ∧ ((s.ctx s.cur).prv = true ∨ a.userRead = true)) ∧
    (∃ (s : State) (num : BitVec 12) (a : SReg) (e : Effect), s.HeadReady (.mtc num a) e ∧ s.Unmarked ∧
      (∃ k, ctlAccess num.toNat (s.ctx s.cur).uh = some k ∧
        (k.userWrite = true ∨ ((s.ctx s.cur).prv = true ∧ k.supWrite = true))) ∧
      num = 0x003 ∧ s.domainOk (s.at s.cur) (bits ((s.ctx s.cur).getS a) 15 0) = true) ∧
    (isS 0x4E140030 0x70 false = true ∧ isS 0x4E340036 0x71 false = true) ∧
    ctlAccess 0xFFF false = none ∧
    (∃ k, ctlAccess 0x000 false = some k ∧ k.supWrite = false ∧ k.userWrite = false) ∧
    (∃ k, ctlAccess 0x034 (userState.ctx userState.cur).uh = some k ∧ (userState.ctx userState.cur).prv = false ∧
      k.userRead = false ∧ k.supWrite = true ∧ k.userWrite = false) ∧
    (∃ (s : State) (e : Effect), (s.ctx s.cur).prv = true ∧ s.HeadReady (.mtc 0x003 10) e ∧
      s.domainOk (s.at s.cur) (bits ((s.ctx s.cur).getS 10) 15 0) = false) ∧
    isS 0x4E141030 0x70 true = true ∧ isS 0x4E34F036 0x71 true = true :=
  ⟨⟨small id, 20, 0x030, _, ready_of rfl rfl, unmarked_of rfl, _, rfl, .inl rfl⟩,
    ⟨{ small (withS [(10, 3)]) with parts := part1 }, 0x003, 10, _, ready_of rfl rfl, unmarked_of rfl,
      ⟨_, rfl, .inr ⟨rfl, rfl⟩⟩, rfl, by decide⟩, ⟨by decide, by decide⟩, by decide, ⟨_, rfl, rfl, rfl⟩, ⟨_, rfl, rfl, rfl, rfl, rfl⟩,
    ⟨{ small (withS [(10, 4)]) with parts := part1 }, _, rfl, ready_of rfl rfl, by decide⟩, by decide, by decide⟩

/-- A user's context with handlers for both modes. -/
def handled (c : Ctx) : Ctx := { c with prv := false, tvecS := 0x8000, tvecU := 0x4000, tdeleg := 2 ^ 32 - 1 }

theorem enters_of {c : Ctx} {cause : Nat} (h : (c.st = .running ∨ c.st = .parked) ∧ c.pend = [] ∧ Cause.fatal cause = false ∧
    c.noHandler cause = false ∧ c.escalates = false) : c.EntersNow cause := ⟨h.1, h.2.1, h.2.2.1, h.2.2.2.1, h.2.2.2.2⟩

theorem witness_TrapEntryEntersHandler :
    (∃ (s : State) (cause : Nat), (s.ctx s.cur).EntersNow cause ∧ (s.ctx s.cur).toUser cause = true) ∧
    ∃ (s : State) (imm : Imm16), (s.ctx s.cur).Clear (bundleReads (.trap imm) s.bun.tail ++ bundleWrites (.trap imm) s.bun.tail) ∧
      (s.ctx s.cur).EntersNow Cause.softTrap ∧ (s.ctx s.cur).toUser Cause.softTrap = false :=
  ⟨⟨small handled, Cause.softTrap, enters_of (by decide), by decide⟩, small fun c => { c with tvecS := 0x8000 }, ⟨0x55, none⟩,
    clear_of rfl, enters_of (by decide), by decide⟩

/-- A context that a cause may reach as it stands. -/
def mayTrap (c : Ctx) (cause : Nat) : Bool :=
  decide (cause < 2 ^ 8) && !Cause.fatal cause && c.kill.isNone && decide (c.st = .running) && c.twin.isNone && c.pend.isEmpty

theorem witness_CausesGoToOnePlace :
    let at_ := fun (f : Ctx → Ctx) => (small fun c => f (handled c)).ctx 0
    mayTrap (at_ id) 0 = true ∧ mayTrap (at_ id) 5 = true ∧
      (at_ fun c => { c with sh := true }).sh = true ∧
      (let c := at_ fun c => { c with uh := true }
       c.sh = false ∧ c.uh = true ∧ c.tvecS ≠ 0) ∧
      (let c := at_ id
       c.sh = false ∧ c.uh = false ∧ c.prv = false ∧ c.tdeleg.getLsbD 5 = true ∧ c.tvecU ≠ 0) ∧
      (let c := at_ fun c => { c with tdeleg := 0 }
       c.sh = false ∧ c.uh = false ∧ c.tdeleg.getLsbD 5 = false ∧ c.tvecS ≠ 0) ∧
      (let c := at_ fun c => { c with uh := true, tvecS := 0 }
       c.sh = false ∧ c.tvecS = 0 ∧ c.uh = true) := by decide

theorem witness_CauseWithoutHandlerKills :
    let c := (small id).ctx (small id).cur
    (Cause.fatal Cause.killed = true ∧ c.noHandler Cause.softTrap = true) ∧ c.kill = none ∧ c.st = .running ∧ c.slot ≠ none ∧
      c.twin = none := by decide

theorem witness_RftReturnsFromHandler :
    (∃ (s : State) (e : Effect), s.HeadReady (.rft true) e ∧ ((s.ctx s.cur).uh = true ∨ (s.ctx s.cur).sh = true) ∧ s.Unmarked ∧
      s.skipWords s.cur ((s.ctx s.cur).trappc.setWidth 64) = .ok 1 ∧
      s.TargetOk s.cur true (s.ctx s.cur).pprv ((s.ctx s.cur).trappc.setWidth 64 + word 4)) ∧
    ∃ (s : State) (e : Effect), s.HeadReady (.rft false) e ∧ (s.ctx s.cur).uh = false ∧ (s.ctx s.cur).sh = false :=
  ⟨⟨codeState nops fun c => { c with sh := true, pprv := true, trappc := 0x1010 }, _, ready_of rfl rfl, .inr rfl, unmarked_of rfl,
      ok_eq (by decide +kernel), by decide +kernel, by decide +kernel, by decide +kernel,
      ⟨0x1000, lanesVec 32 nops⟩, by decide +kernel, by decide +kernel, by decide +kernel, by decide +kernel⟩,
    small id, _, ready_of rfl rfl, rfl, rfl⟩

theorem witness_SupervisorInstructionsAct :
    (∃ (s : State) (e : Effect), s.HeadReady .halt e ∧ (s.ctx s.cur).prv = true ∧ s.leads = false) ∧
    (∃ (s : State) (e : Effect), s.HeadReady (.plbw 9 10 11) e ∧ s.Unmarked ∧ (s.ctx s.cur).prv = true ∧
      ((s.ctx s.cur).getS 10).toNat = 63 ∧ bits ((s.ctx s.cur).getS 11) 15 9 = 0 ∧ bits ((s.ctx s.cur).getS 11) 63 63 = 0 ∧
      bits ((s.ctx s.cur).getS 11) 0 0 = 1 ∧ s.domainOk (s.at s.cur) (bits ((s.ctx s.cur).getS 11) 31 16) = true) ∧
    (userState.ctx userState.cur).prv = false :=
  ⟨⟨small id, _, ready_of rfl rfl, rfl, rfl⟩,
    ⟨{ small (withS [(10, 63), (11, 0x3001F)]) with parts := part1 }, _, ready_of rfl rfl, unmarked_of rfl, rfl, by decide, by decide,
      by decide, by decide, by decide⟩, rfl⟩

/-- Contexts 0 and 1 of core 0, in the domains 0 and 2, with s10 naming a target. -/
def killState (a : Word) : State :=
  { small id with
    parts := part1
    ctxs := [(0, withS [(10, a)] { Ctx.initial with st := .running, slot := some 0, pc := 0x1000, prv := true }),
      (1, { Ctx.initial with st := .running, slot := some 1, pc := 0x1000, domain := 2 })] }

theorem witness_KillReachesItsTargets :
    (let s := killState 4
     s.HeadReady (.kill 9 10 true false) Effect.none ∧ s.domainOk (s.at s.cur) (bits ((s.ctx s.cur).getS 10) 15 0) = false) ∧
    (let s := killState 3
     s.domainOk (s.at s.cur) (bits ((s.ctx s.cur).getS 10) 15 0) = true ∧
      s.domainContexts (bits ((s.ctx s.cur).getS 10) 15 0) s.cur = []) ∧
    (let s := killState 2
     s.domainOk (s.at s.cur) (bits ((s.ctx s.cur).getS 10) 15 0) = true ∧ s.Unmarked ∧
      s.domainContexts (bits ((s.ctx s.cur).getS 10) 15 0) s.cur = [1] ∧ (s.ctx 1).st = .running ∧ (s.ctx 1).dying = false ∧
      (s.ctx 1).wait ≠ .drain) ∧
    (let s := killState 0
     bits ((s.ctx s.cur).getS 10) 31 22 = Config.moduleNumber ∧ (s.coresOf (s.at s.cur)).contains (coreOf 0) = true ∧
      bits ((s.ctx s.cur).getS 10) 31 0 = s.cur ∧ s.leads = false) ∧
    (let s := killState 5
     bits ((s.ctx s.cur).getS 10) 31 22 = Config.moduleNumber ∧ (s.coresOf (s.at s.cur)).contains (coreOf 5) = true ∧
      (s.ctx 5).st = .free) :=
  ⟨⟨ready_of rfl rfl, by decide⟩, ⟨by decide, by decide⟩, ⟨by decide, unmarked_of rfl, by decide, by decide, by decide, by decide⟩,
    ⟨by decide, by decide, by decide, rfl⟩, by decide, by decide, by decide⟩

/-- Core 0's own local memory, from cluster 0 (R58, R62). -/
def slab0 : Word := 0x01001F8000000000

/-- A state with s10 and s11 set, in the partition. -/
def opState (x y : Word) : State := { small (withS [(10, x), (11, y)]) with parts := part1 }

/-- The same for a user. -/
def userOp (x y : Word) : State := { small (fun c => withS [(10, x), (11, y)] { c with prv := false }) with parts := part1 }

theorem witness_LoadsGoUnderWay :
    ∃ (s : State) (i : Instr) (e : Effect) (f : LoadForm) (cs : List (Piece × Place)), loadOf i s = some f ∧ s.HeadReady i e ∧
      s.Unmarked ∧ s.MemoryFree f.form.relaxed ∧ (s.ctx s.cur).queueFull f.values = false ∧
      s.tryPieces f.form.am f.form.align 1 f.form.host f.form.pieces = .ok cs := by
  refine ⟨opState (slab0 + 8) 0, .ldd ⟨9, 10, .global, true, ⟨0x3F, none⟩⟩, _, _, _, rfl, ready_of rfl rfl, unmarked_of rfl,
    ⟨rfl, fun _ => by decide⟩, by decide +kernel, (ok_of (by decide +kernel)).choose_spec⟩

theorem witness_StoresGoUnderWay :
    (∃ (s : State) (i : Instr) (e : Effect) (f : MemForm) (data : List Byte) (cs : List (Piece × Place)),
      storeOf i s = some (f, data) ∧ s.HeadReady i e ∧ s.MemoryFree f.relaxed ∧
      s.tryPieces f.am f.align 2 f.host f.pieces = .ok cs ∧ s.storeParks s.cur f.relaxed cs = false ∧ s.Unmarked) ∧
    ∃ (s : State) (i : Instr) (e : Effect) (f : MemForm) (data : List Byte) (cs : List (Piece × Place)),
      storeOf i s = some (f, data) ∧ s.HeadReady i e ∧ s.MemoryFree f.relaxed ∧
      s.tryPieces f.am f.align 2 f.host f.pieces = .ok cs ∧ s.storeParks s.cur f.relaxed cs = true ∧
      ∃ p, f.pieces = [p] ∧ bits p.addr 56 56 = 0 ∧ s.leads = false ∧ s.Unmarked ∧
        ((s.core (s.at s.cur)).l1d.map fun x => decide (x.addr = p.addr.toNat / 64 * 64)) = [false, true] :=
  ⟨⟨opState slab0 0, .stw ⟨9, 10, .global, false, ⟨0, none⟩⟩, _, _, _, [(⟨slab0, 0, 4⟩, .slab 0 0)], rfl, ready_of rfl rfl,
      ⟨rfl, fun h => by cases h⟩, ok_eq (by decide +kernel), by decide +kernel, unmarked_of rfl⟩,
    { opState 0x1038 0 with cores := [(0, { Core.initial with l1d := [⟨0x1040, 0⟩, ⟨0x1000, 0⟩] })] },
    .std ⟨9, 10, .global, false, ⟨0, none⟩⟩, _, _, _, [(⟨0x1038, 0, 8⟩, .global 0 0 0x1038)], rfl, ready_of rfl rfl,
    ⟨rfl, fun h => by cases h⟩, ok_eq (by decide +kernel), by decide +kernel, _, rfl, by decide, rfl, unmarked_of rfl, by decide⟩

/-- A request of a context that slice 0 has not accepted yet. -/
def inFlight : Access where
  id := 0
  seq := 0
  gid := 0
  gen := 0
  core := 0
  pc := 0
  kind := .store
  relaxed := true
  dests := []
  size := 8
  parts := [⟨.slice 0 0, 0x1000, [], [], [], .sent, 0, 0, 0, none⟩]
  addr := 0x1000
  domain := 0
  domGen := 0
  prv := true
  parks := false
  epoch := 0
  noFill := []
  noRdc := []
  fault := none
  faultAt := 0
  allOnes := false
  bcmd := none
  entry := true
  extra := 0
  touch := 0x20000
  due := 0

/-- A context that has touched core 0 and slice 0. -/
def touched (as : List Access) : State :=
  { small (fun c => { c with touch := 0x20001 }) with parts := part1, accs := as }

theorem free_of {s : State} (h : (s.ctx s.cur).outstanding = none) : s.MemoryFree false := ⟨h, fun h => by cases h⟩

theorem witness_OrderingInstructionsComplete :
    (let s := opState slab0 0
     let c := s.ctx s.cur
     c.slot ≠ none ∧ s.MemoryFree false ∧ s.HeadReady (.lda ⟨9, 10, .global, .die, ⟨0, none⟩⟩) Effect.none ∧ s.Unmarked ∧
      c.queueFull 1 = false ∧ (∃ cs, s.tryPieces .global 8 1 true [⟨c.getS 10 + (⟨0, none⟩ : Off6).value 8, 0, 8⟩] = .ok cs) ∧
      s.HeadReady (.stl ⟨9, 10, .global, .die, ⟨0, none⟩⟩) Effect.none ∧ s.Released (scopeMask (s.at s.cur) .die) ∧
      (∃ cs, s.tryPieces .global 8 2 true [⟨c.getS 10 + (⟨0, none⟩ : Off6).value 8, 0, 8⟩] = .ok cs) ∧
      s.HeadReady (.fence .pod false) Effect.none ∧ s.Released (scopeMask (s.at s.cur) .pod) ∧ c.rcause = 0 ∧
      s.HeadReady (.l1inv true true (.whole false)) Effect.none) ∧
    (let s := opState 0x1000 0
     s.HeadReady (.l1inv true true (.line 10 ⟨0, none⟩)) Effect.none ∧ s.Unmarked ∧
      bits ((s.ctx s.cur).getS 10 + (⟨0, none⟩ : Off6).value 1) 63 56 = 0) ∧
    (let s := touched []
     s.HeadReady (.fence .die false) Effect.none ∧ s.probesOf (s.at s.cur) ((s.ctx s.cur).touch &&& scopeMask (s.at s.cur) .die) ≠ [] ∧
      s.allAccepted s.cur = true) ∧
    (let s := touched [inFlight]
     s.HeadReady (.fence .die false) Effect.none ∧ scopeMask (s.at s.cur) .die ≠ 0 ∧ s.allAccepted s.cur = false ∧ s.leads = false) :=
  ⟨⟨by decide, free_of rfl, ready_of rfl rfl, unmarked_of rfl, by decide, ok_of (by decide +kernel), ready_of rfl rfl,
      ⟨by decide, by decide⟩, ok_of (by decide +kernel), ready_of rfl rfl, ⟨by decide, by decide⟩, by decide, ready_of rfl rfl⟩,
    ⟨ready_of rfl rfl, unmarked_of rfl, by decide⟩, ⟨ready_of rfl rfl, by decide +kernel, by decide⟩, ready_of rfl rfl, by decide,
    by decide, rfl⟩

/-- R61, R63, R75: bytes past the legal windows, a slab address in a mode that must not name another cluster, rights missing. -/
theorem witness_AddressChecksInOrder :
    (bits (0x0200000000000000 : Word) 63 57 ≠ 0 ∧ (0x1001 : Word).toNat % 8 ≠ 0) ∧
    (let s := userOp 0 0
     let c := s.ctx 0
     bits (0x1000 : Word) 63 57 = 0 ∧ (0x1000 : Word).toNat % 8 = 0 ∧ bits (0x1000 : Word) 56 56 = 0 ∧ c.prv = false ∧
      Rights.cover (s.plbRights (s.at 0) c.domain 0x1000) 1 = false) ∧
    (let s := opState 0 0
     (s.ctx 0).prv = true ∧ bits slab0 56 47 = 2 ^ 9 ∧ bits slab0 38 21 = 0 ∧ s.ownCoreOk (s.at 0) slab0 = true ∧
      s.slabCluster (s.at 0) slab0 = some 0 ∧ (s.core 0).present = true ∧
      bits (slab0 - 0x170000000000) 56 47 = 2 ^ 9 ∧ s.slabCluster (s.at 0) (slab0 - 0x170000000000) = none) ∧
    (let s := { opState 0 0 with cores := [(1, { Core.initial with present := false })] }
     s.slabCluster (s.at 0) (slab0 + 0x40000) = some 0 ∧ (slabByte .global (s.at 0) (bits (slab0 + 0x40000) 20 0)).1 = 1 ∧
      (s.core 1).present = false) ∧
    (bits (0x0120000000000000 : Word) 56 46 = 9 * 2 ^ 7 ∧ bits (0x0120000000000000 : Word) 44 28 = 0 ∧
      bits (0x0140000000000000 : Word) 56 40 = 5 * 2 ^ 14) ∧
    (let s := { opState 0 0 with parts := [(1, { Partition.initial with enable := true, clusters := 1, hwen := true })] }
     s.hostOpen (s.at 0) = true ∧ (opState 0 0).hostOpen ((opState 0 0).at 0) = false) := by decide +kernel

theorem witness_MemoryInstructionsWaitTheirTurn :
    (let s := small fun c => { c with outstanding := some 3 }
     ¬ s.MemoryFree false ∧ memoryForm loadBy9 s = some false ∧ memoryForm (.fence .die false) s = some false ∧
      memoryForm (.acas ⟨9, 10, 11, true⟩) s = some false ∧ memoryForm (.send 9 10 0 none true) s = some false) ∧
    let s := small fun c => { c with relaxed := 8 }
    ¬ s.MemoryFree true ∧ memoryForm (.bkadd ⟨12, 10, 11, .global, true, false, 0⟩) s = some true :=
  ⟨⟨fun h => (by decide : ¬ ((small fun c => { c with outstanding := some 3 }).ctx 0).outstanding = none) h.1, rfl, rfl, rfl, rfl⟩,
    fun h => (by decide : ¬ ((small fun c => { c with relaxed := 8 }).ctx 0).relaxed < 8) (h.2 rfl).1, rfl⟩

theorem witness_ObjectInstructionsAskTheHome :
    (let s := opState 0x1000 1
     let c := s.ctx s.cur
     let a := c.getS 10
     objectArgs (.cset ⟨9, 10, 11, none, false, true, false⟩) = some ⟨9, 10, 11, none, false, true, false⟩ ∧ s.MemoryFree false ∧
      s.HeadReady (.cset ⟨9, 10, 11, none, false, true, false⟩) Effect.none ∧ s.leads = false ∧ bits a 63 46 = Config.moduleNumber ∧ a.toNat % 64 = 0 ∧
      c.prv = true ∧ s.Released (scopeMask (s.at s.cur) ((homeScope (s.at s.cur) a).max .core))) ∧
    (let s := opState 0x1008 1
     let c := s.ctx s.cur
     s.MemoryFree false ∧ c.Clear (bundleReads (.ksig ⟨0, 10, 0, none, false, false, false⟩) s.bun.tail ++
      bundleWrites (.ksig ⟨0, 10, 0, none, false, false, false⟩) s.bun.tail) ∧ (c.getS 10).toNat % 64 ≠ 0) ∧
    (let s := userOp 0x1000 1
     let c := s.ctx s.cur
     let a := c.getS 10
     s.MemoryFree false ∧ c.Clear (bundleReads (.ksig ⟨0, 10, 0, none, false, false, false⟩) s.bun.tail ++
      bundleWrites (.ksig ⟨0, 10, 0, none, false, false, false⟩) s.bun.tail) ∧ bits a 63 56 = 0 ∧ a.toNat % 64 = 0 ∧ c.prv = false ∧
      Rights.cover (s.plbRights (s.at s.cur) c.domain a) 8 = false) ∧
    (let s := opState 0x1004 1
     let c := s.ctx s.cur
     let a := c.getS 10
     atomicArgs (.acas ⟨9, 10, 11, true⟩) = some ⟨9, 10, 11, true⟩ ∧ s.HeadReady (.acas ⟨9, 10, 11, true⟩) Effect.none ∧
      s.MemoryFree false ∧ s.leads = false ∧ bits a 63 46 = Config.moduleNumber ∧ a.toNat % 4 = 0 ∧ c.prv = true) :=
  ⟨⟨rfl, free_of rfl, ready_of rfl rfl, rfl, by decide, by decide, by decide, by decide, by decide⟩,
    ⟨free_of rfl, clear_of rfl, by decide⟩, ⟨free_of rfl, clear_of rfl, by decide, by decide, by decide, by decide⟩,
    rfl, ready_of rfl rfl, free_of rfl, rfl, by decide, by decide, by decide⟩

theorem witness_BankCommandsGoUnderWay :
    let s := { small (withS [(10, slab0), (11, slab0 + 0x1000), (12, 1008)]) with parts := part1 }
    let c := s.ctx s.cur
    let i := Instr.bkadd ⟨12, 10, 11, .global, true, false, 0⟩
    bankArgs i = some ⟨12, 10, 11, .global, true, false, 0⟩ ∧ s.HeadReady i Effect.none ∧ s.Unmarked ∧ s.MemoryFree true ∧
      bits (c.getS 12) 9 0 = 1008 ∧ s.bankCheck .global (c.getS 10) (c.getS 11) (bankHasSource (bankOp i)) 1008 1008 = .ok (0, 0) :=
  ⟨rfl, ready_of rfl rfl, unmarked_of rfl, ⟨rfl, fun _ => by decide⟩, by decide, ok_eq (by decide +kernel)⟩

/-- s8 to s15 hold a matrix command that fills (or a word that is none), s16 to s23 a copy command. -/
def engineState (m c : Word) : State :=
  { small (withS [(8, m), (16, c), (20, 0x100000001)]) with parts := part1 }

theorem witness_EngineCommandsAreQueued :
    (let s := engineState 0x08100000000003 1
     let c := s.ctx s.cur
     let core := s.at s.cur
     c.twin = none ∧ c.slot ≠ none ∧ s.HeadReady (.mxc 9 .s8) Effect.none ∧ matrixFail (c.block .s8) c.tfmt c.tscale false = none ∧
      (s.core core).mx.used < 32 ∧ s.Released (s.matrixMask s.cur (s.matrixCmd s.cur (c.block .s8))) ∧
      s.HeadReady (.cpc 9 .s16) Effect.none ∧ copyFail (c.block .s16) c.tfmt = none ∧
      (s.cluster (clusterOf core)).cpQueue.length < 64 ∧ s.Released (s.copyMask s.cur (c.block .s16))) ∧
    (let s := engineState 0 0
     let c := s.ctx s.cur
     matrixFail (c.block .s8) c.tfmt c.tscale false = some 0 ∧ copyFail (c.block .s16) c.tfmt = some 0) :=
  ⟨⟨rfl, by decide, ready_of rfl rfl, by decide +kernel, by decide, ⟨by decide, by decide +kernel⟩, ready_of rfl rfl,
      by decide +kernel, by decide, by decide, by decide +kernel⟩, by decide +kernel, by decide +kernel⟩

theorem witness_EstatReadsAndClears :
    (∃ (s : State) (e : Effect), s.HeadReady (.estat 9 true true) e ∧ s.Unmarked) ∧
    (let w : Code := 0x4A490003
     Code.cls w = 1 ∧ Code.side w = false ∧ Code.opc w = 0x52 ∧ w.extractLsb' 2 14 = 0) ∧
    (let w : Code := 0x4A498003
     Code.cls w = 1 ∧ Code.side w = false ∧ Code.opc w = 0x52 ∧ w.extractLsb' 2 14 ≠ 0) :=
  ⟨⟨small id, _, ready_of rfl rfl, unmarked_of rfl⟩, by decide, by decide⟩

/-- 128 task records on the deque of core 0. -/
def fullDeque (s : State) : State :=
  { s with cores := [(0, { Core.initial with deque := List.replicate 128 (s.taskRec 0 0 0) })] }

theorem witness_TasksAndMessagesLeave :
    (let s := opState 0 0x2000
     let c := s.ctx s.cur
     let core := s.at s.cur
     c.slot ≠ none ∧ s.leads = false ∧ s.HeadReady (.fork 9 10 11) Effect.none ∧ s.forkCheck (c.getS 10) (c.getS 11) = none ∧
      s.Released (scopeMask core (s.forkScope core (s.stealSize s.cur))) ∧ (s.core core).deque.length < 128 ∧
      s.HeadReady (.spawn 9 10 11) Effect.none ∧ s.spawnCheck (c.getS 10) (c.getS 11) = none ∧ s.Released (scopeMask core .module) ∧
      s.HeadReady (.send 9 10 0 none true) Effect.none ∧ s.MemoryFree false ∧ bits (c.getS 10) 31 22 = Config.moduleNumber ∧
      s.Released (scopeMask core ((coreScope core (coreOf (bits (c.getS 10) 31 0))).max .core))) ∧
    128 ≤ ((fullDeque (opState 0 0x2000)).core 0).deque.length ∧
    (let s := { opState 0 0x2000 with cores := [(0, { Core.initial with dequeAt := 1 })] }
     s.cycle < (s.core (s.at s.cur)).dequeAt) :=
  ⟨⟨by decide, rfl, ready_of rfl rfl, by decide +kernel, ⟨by decide, by decide⟩, by decide, ready_of rfl rfl, by decide +kernel,
    ⟨by decide, by decide⟩, ready_of rfl rfl, free_of rfl, by decide, by decide, by decide⟩, by decide +kernel, by decide⟩

/-- A Ready context of level 3 waits on core 0; the timebase is set. -/
def yieldState : State :=
  { small id with
    cores := [(0, { Core.initial with ready := [⟨4, 0, 0, 0, 0⟩] })]
    dies := [(0, { Die.initial with timeSet := true })]
    ctxs := [(0, withS [(10, 5)] { Ctx.initial with st := .running, slot := some 0, pc := 0x1000, prv := true }),
      (4, { Ctx.initial with st := .ready })] }

/-- The leader of a pair in slot 0 of core 0. -/
def leading : State := small fun c => { c with twin := some (newTwin c true 512) }

theorem witness_QuitYieldAndWaitt :
    (let s := small id
     (s.ctx s.cur).slot ≠ none ∧ s.HeadReady .quit Effect.none ∧ s.HeadReady .yield Effect.none ∧ s.yields s.cur = false ∧ s.Unmarked ∧ s.leads = false) ∧
    (leading.ctx leading.cur).slot ≠ none ∧ leading.HeadReady .quit Effect.none ∧ leading.leads = true ∧
    (let s := { yieldState with cycle := 1 }
     (s.ctx s.cur).slot ≠ none ∧ s.HeadReady .yield Effect.none ∧ s.yields s.cur = true ∧ (s.ctx s.cur).pend = [] ∧
      (s.ctx s.cur).outstanding = none ∧ (s.core (s.at s.cur)).tcc = [] ∧ (∀ x ∈ (s.core (s.at s.cur)).ready, x.since < s.cycle) ∧
      s.HeadReady (.waitt 9 10 11) Effect.none ∧
      (s.ctx s.cur).wake = false ∧ s.passed (dieOfCore (s.at s.cur)) ((s.ctx s.cur).getS 10 + (s.ctx s.cur).getS 11) = false ∧
      (s.die (dieOfCore (s.at s.cur))).timeSet = true) ∧
    (let s := { yieldState with cycle := 18 }
     s.HeadReady (.waitt 9 10 11) Effect.none ∧
      s.passed (dieOfCore (s.at s.cur)) ((s.ctx s.cur).getS 10 + (s.ctx s.cur).getS 11) = true) :=
  ⟨⟨by decide, ready_of rfl rfl, ready_of rfl rfl, by decide, unmarked_of rfl, rfl⟩, by decide, ready_of rfl rfl, by decide,
    ⟨by decide, ready_of rfl rfl, by decide, rfl, rfl, by decide, by decide, ready_of rfl rfl, rfl, by decide, by decide⟩,
    ready_of rfl rfl, by decide⟩

/-- A message for context 0 with tag 7, held at core 0. -/
def message7 : Message := ⟨0, 0, 0x700000010, 1, 2, 3⟩

/-- Entries in the first n places of core 0's arrival-match table, with the tags 100 on. -/
def matchState (n : Nat) (x y : Word) : State :=
  { opState x y with cores := [(0, { Core.initial with
      inbox := [message7]
      arrivals := (List.range n).map fun k => (k, ⟨BitVec.ofNat 32 (100 + k), 0, 0, 4, 0, false⟩) })] }

/-- The message fits what context 0 of a state asks for by the tag in s10. -/
def fitsTag (s : State) (m : Message) : Bool :=
  m.dest == s.cur && (!true || bits m.w0 63 32 == bits ((s.ctx s.cur).getS 10) 31 0)

/-- MATCH's operands in s10 and s11 are ill formed or name a context that may not be named. -/
def badMatch (s : State) : Prop :=
  let c := s.ctx s.cur
  let x := c.getS 10
  let y := c.getS 11
  let named := s.ctx (gidOf (s.at s.cur) (bits x 43 32))
  bits x 63 44 ≠ 0 ∨ bits y 63 32 ≠ 0 ∨ bits y 31 0 = 0 ∨ named.st = .free ∨ (c.prv = false ∧ named.domain ≠ c.domain)

/-- The tag in s10 is in use. -/
def usedTag (s : State) : Prop :=
  ∃ k m, (k, m) ∈ (s.core (s.at s.cur)).arrivals ∧ m.tag.toNat = bits ((s.ctx s.cur).getS 10) 31 0

theorem unusedTag {s : State} (h : (s.core (s.at s.cur)).arrivals.all (fun x => x.2.tag.toNat != bits ((s.ctx s.cur).getS 10) 31 0) = true) :
    ¬ usedTag s := by
  rintro ⟨k, m, hm, ht⟩
  have := List.all_eq_true.mp h _ hm
  simp [ht] at this

theorem witness_MessagesAreTakenAndMatched :
    (let s := matchState 0 7 0
     s.HeadReady (.recv 12 10 true false) Effect.none ∧ s.Unmarked ∧ (s.ctx s.cur).hasRecorded Cause.engineError = false ∧
      (s.core (s.at s.cur)).inbox.find? (fitsTag s) = some message7) ∧
    (let s := matchState 0 8 0
     s.HeadReady (.recv 12 10 true false) Effect.none ∧ (s.core (s.at s.cur)).inbox.find? (fitsTag s) = none ∧
      (s.core (s.at s.cur)).saggarMsgs.find? (fitsTag s) = none) ∧
    (let s := matchState 1 0x100000000000 4
     s.HeadReady (.arrMatch 9 10 11 true) Effect.none ∧ s.Unmarked ∧ badMatch s) ∧
    (let s := matchState 1 100 4
     s.HeadReady (.arrMatch 9 10 11 true) Effect.none ∧ ¬ badMatch s ∧ usedTag s) ∧
    (let s := matchState 16 7 4
     s.HeadReady (.arrMatch 9 10 11 true) Effect.none ∧ ¬ badMatch s ∧ ¬ usedTag s ∧
      ∀ k, k < 16 → mapGet (s.core (s.at s.cur)).arrivals k ≠ none) ∧
    (let s := matchState 15 7 4
     s.HeadReady (.arrMatch 9 10 11 true) Effect.none ∧ ¬ badMatch s ∧ ¬ usedTag s ∧
      mapGet (s.core (s.at s.cur)).arrivals 15 = none ∧ ∀ j, j < 15 → mapGet (s.core (s.at s.cur)).arrivals j ≠ none) :=
  ⟨⟨ready_of rfl rfl, unmarked_of rfl, by decide +kernel, by decide +kernel⟩, ⟨ready_of rfl rfl, by decide +kernel, by decide +kernel⟩,
    ⟨ready_of rfl rfl, unmarked_of rfl, .inl (by decide +kernel)⟩,
    ⟨ready_of rfl rfl, by unfold badMatch; decide +kernel, 0, ⟨100, 0, 0, 4, 0, false⟩, by decide +kernel, by decide +kernel⟩,
    ⟨ready_of rfl rfl, by unfold badMatch; decide +kernel, unusedTag (by decide +kernel), by decide +kernel⟩,
    ready_of rfl rfl, by unfold badMatch; decide +kernel, unusedTag (by decide +kernel), by decide +kernel, by decide +kernel⟩

/-- A step's subject set: the agent, the item and the value. -/
def about (s : State) (who what : Nat) (ext : EvExt) : State := { s with arg := ⟨who, what, 0, ext⟩ }

/-- Context 0 as a step of fetch or resumption finds it. -/
def stepState (f : Ctx → Ctx) : State := about { codeState nops f with parts := part1 } 0 0 .none

/-- A jump by register to an address, issued at cycle 2 by context 0. -/
def jumped (target : Word) : Undo :=
  { xfer := ⟨target, Effect.none, true, false, ⟨0x1000, 0, ⟨false, .jr 10 ⟨0, none⟩, none⟩, [], [], []⟩⟩, at_ := 2, pc := 0x1000, old := [], marker := false, prv := true, uh := false
    sh := false, pprv := false, puh := false, wcount := 0, replay := [], issuedAt := 0 }

/-- What the fetch of context 0's transfer finds at an address. -/
def foundAt (t : Word) : Except Trap (Option Nat) :=
  let s := stepState fun c => { c with pc := t, undo := some (jumped t) }
  match (s.ctx 0).undo with
  | none => .ok none
  | some u => s.checkTarget 0 [] u.xfer.byReg (if u.xfer.rft then u.pprv else u.prv) u.xfer.target

/-- The fetch of a transfer's target: the words there, an absent sector, or an address that is not one of a bundle. -/
theorem witness_FetchOfTargets :
    okOf (foundAt 0x1004) = some none ∧ okOf (foundAt 0x2000) = some (some 0x2000) ∧
    errOf (foundAt 0x1002) = some (Cause.badTarget, 0x1002) ∧
    (let c := (stepState fun c => { c with pc := 0x1004, undo := some (jumped 0x1004) }).ctx 0
     c.st = .running ∧ c.latch = none ∧ c.fills = [] ∧ c.trap = none ∧ c.kill = none ∧ c.wait ≠ .drain ∧ (jumped 0x1004).marker = false) := by
  decide +kernel

theorem witness_FetchAndResumeSteps :
    (let s := stepState id
     let c := s.ctx 0
     c.st = .running ∧ c.latch = none ∧ c.fills = [] ∧ c.trap = none ∧ c.transfer = none ∧ c.kill = none ∧ c.wait ≠ .drain ∧
      c.resuming = false ∧ c.vectoring = false ∧ s.gather 0 c.pc 5 [] = .words [0x40000000, 0x40000000]) ∧
    (let s := about { small id with cores := [(0, { Core.initial with ifills := [⟨0x1000, true, false, false, some 5, false⟩] })] } 0 0x1000 .none
     (s.core 0).ifills.find? (fun x => x.sector == 0x1000 && x.sent) = some ⟨0x1000, true, false, false, some 5, false⟩ ∧
      ∀ x ∈ s.ctxs, ¬ (x.2.at x.1 = 0 ∧ 0x1000 ∈ x.2.fills)) ∧
    (let c := (stepState fun c => { c with pc := 0x2000 }).ctx 0
     c.latch = none ∧ c.undo = none ∧ (stepState fun c => { c with pc := 0x2000 }).gather 0 c.pc 5 [] = .missing 0x2000) ∧
    (let x := (small fun c => { c with st := .parked, wait := .fetchFill, fills := [0x1000] }).ctx 0
     x.at 0 = 0 ∧ x.transfer = none ∧ x.latch = none ∧ x.slot ≠ none) ∧
    (let c := (stepState fun c => { c with async := [Cause.parityKill] }).ctx 0
     c.st = .running ∧ Cause.killed ∉ c.async ∧ Cause.parityKill ∈ c.async) ∧
    (let s := stepState fun c => { c with st := .parked, resuming := true, wait := .object 0 true, pc := 0x2000 }
     let c := s.ctx 0
     c.st = .parked ∧ c.kill = none ∧ c.resuming = true ∧ s.stopped (s.at 0) = none ∧ c.wait = .object 0 true ∧ c.phase = 0 ∧
      c.latch = none ∧ c.fills = [] ∧ s.gather 0 c.pc 5 [] = .missing 0x2000) ∧
    (let s := stepState fun c => { c with st := .parked, resuming := true, wait := .object 0 true, latch := some (.words [0x40000000]) }
     let c := s.ctx 0
     c.st = .parked ∧ c.kill = none ∧ c.resuming = true ∧ s.stopped (s.at 0) = none ∧ c.wait = .object 0 true ∧ c.phase = 0 ∧ c.latch ≠ none ∧
      c.marker = false) ∧
    (let s := stepState fun c =>
       { c with st := .parked, resuming := true, wait := .waitt 5, heldTail := some Effect.none, latch := some (.words [0x40000000]) }
     let c := s.ctx 0
     c.st = .parked ∧ c.kill = none ∧ c.resuming = true ∧ s.stopped (s.at 0) = none ∧ c.wait = .waitt 5 ∧ c.latch ≠ none ∧ c.marker = false ∧
      c.heldTail = some Effect.none) ∧
    (let c := (stepState fun c => { c with async := [Cause.watchdog, Cause.killed] }).ctx 0
     c.st = .running ∧ Cause.killed ∈ c.async) ∧
    (let c := (stepState fun c => { c with async := [Cause.watchdog], tvecS := 0x8000 }).ctx 0
     c.st = .running ∧ c.async = [Cause.watchdog] ∧ c.EntersNow Cause.watchdog) ∧
    (let c := (stepState fun c => { c with trap := some ⟨Cause.softTrap, 0, 0x1000, false, 0⟩, wait := .escalation, uh := true }).ctx 0
     ∃ r, c.trap = some r ∧ c.wait = .escalation ∧ r.cause < 2 ^ 8 ∧ c.uh = true ∧ c.sh = false) :=
  ⟨by decide +kernel, by decide +kernel, by decide +kernel, by decide, by decide, by decide +kernel, by decide +kernel, by decide +kernel, by decide,
    ⟨by decide, by decide, enters_of (by decide)⟩, _, rfl, rfl, by decide, rfl, rfl⟩

/-- A state in which context 0 has one access under way, with its registers pending on it. -/
def accState (a : Access) (f : Ctx → Ctx) : State :=
  about { small (fun c => f { c with pend := a.dests.map fun r => ⟨r, .load a.id⟩ }) with accs := [a] } 0 0 .none

/-- One request of an access, at a stage, with bytes read or to be stored. -/
def part (t : Target) (a : Word) (n : Nat) (st : Stage) (fill : Option (BitVec 512 × Bool)) : Part :=
  ⟨t, a, (List.range n).map fun k => (k, k), List.replicate n 5, [], st, 0, 0, 0, fill⟩

theorem witness_AccessesEnd :
    (let s := { pendingS9 with cycle := 40 }
     ((s.ctx s.arg.who).pend.filter fun p => p.isDue s.cycle) ≠ []) ∧
    (let a := { inFlight with kind := .load 8 false, parts := [part (.slice 0 64) 0x1000 8 .served (some (7, false))] }
     let s := about (accState a id) 0 1 .none
     s.acc s.arg.who = some a ∧ a.parts[s.arg.what - 1]? = some (part (.slice 0 64) 0x1000 8 .served (some (7, false))) ∧
      a.epoch = (s.core a.core).epoch ∧ a.noFill.contains (0x1000 / 64 * 64 / 256) = false) ∧
    (let a := { inFlight with kind := .load 8 true, relaxed := false, dests := [.s 9], size := 8, parts := [part (.slice 0 64) 0x1000 8 .served none] }
     let s := accState a fun c => { c with outstanding := some 0 }
     s.acc s.arg.who = some a ∧ s.arg.what = 0 ∧ a.due = s.cycle ∧ s.sameCtx a.gid a.gen = true ∧ a.fault = none ∧
      ⟨.s 9, .load a.id⟩ ∈ (s.ctx a.gid).pend) ∧
    (let a := { inFlight with relaxed := false }
     let s := accState a id
     s.acc s.arg.who = some a ∧ s.arg.what = 0 ∧ a.due = s.cycle ∧ s.sameCtx a.gid a.gen = true ∧ a.kind = .store ∧ a.fault = none ∧
      a.parks = false) ∧
    (let a := { inFlight with relaxed := false, parks := true }
     let s := accState a fun c => { c with st := .parked, heldTail := some Effect.none }
     let c := s.ctx a.gid
     s.acc s.arg.who = some a ∧ s.arg.what = 0 ∧ a.due = s.cycle ∧ s.sameCtx a.gid a.gen = true ∧ a.fault = none ∧ a.parks = true ∧
      c.heldTail = some Effect.none ∧ c.st = .parked ∧ c.slot ≠ none) ∧
    (∀ kind ∈ [AccKind.store, .load 8 false], let a := { inFlight with kind := kind, parts := [part (.slice 0 64) 0x1000 8 .served none] }
     let s := { accState a id with arg := ⟨0, 1, Cause.objStore, .none⟩ }
     s.acc s.arg.who = some a ∧ a.parts[0]? = some (part (.slice 0 64) 0x1000 8 .served none) ∧ s.sameCtx a.gid a.gen = true ∧
      (s.ctx a.gid).twin = none ∧ (s.ctx a.gid).rcause = 0) ∧
    (let s := about (small fun c => { c with st := .parked, wait := .probes, probes := [0, 9] }) 0 0 .none
     s.arg.what ∈ (s.ctx 0).probes ∧ s.arg.val = 0 ∧ s.arg.what < 2 ^ 14 ∧ (s.ctx 0).wait = .probes ∧
      ∃ b ∈ (s.ctx 0).probes, b ≠ s.arg.what) ∧
    (let s := about (small fun c => { c with st := .parked, wait := .probes, probes := [2 ^ 14 + 16, 9] }) 0 (2 ^ 14 + 16) .none
     s.arg.what ∈ (s.ctx 0).probes ∧ s.groupServed 0 16 = true) ∧
    (let a := { inFlight with parts := [part (.away 1) 0x1000 8 .accepted none] }
     let s := about { touched [a] with ctxs := [(0, { Ctx.initial with st := .parked, wait := .probes, probes := [2 ^ 14 + 58] })] } 0 (2 ^ 14 + 58) .none
     s.arg.what ∈ (s.ctx 0).probes ∧ s.groupServed 0 58 = false) ∧
    (∀ stage ∈ [Stage.sent, .accepted], let a := { inFlight with parts := [part (.slice 3 64) 0x1000 8 stage none] }
     let s := { touched [a] with
       ctxs := [(0, { Ctx.initial with st := .parked, wait := .probes, probes := [2 ^ 13 + 3] })]
       arg := ⟨0, 2 ^ 13 + 3, 1, .none⟩ }
     s.arg.what ∈ (s.ctx 0).probes ∧ s.sliceServed 0 3 = decide (stage = .sent)) ∧
    (let s := { touched [] with
       ctxs := [(0, { Ctx.initial with st := .parked, wait := .probes, probes := [1 * 8 + 7] })]
       arg := ⟨0, 1 * 8 + 7, 171, .none⟩ }
     s.arg.what ∈ (s.ctx 0).probes ∧ (s.cluster (clusterOf 1)).leasedCore ≠ some 1 ∧ ((s.core 1).bank 7).accQ.length < 16) := by
  refine ⟨?_, ?_, ?_, ?_, ?_, ?_, ?_, ?_, ?_, ?_, ?_⟩ <;> decide +kernel

/-- An access of context 0 with one request at a bank or slice; it is part 0 of access 0. -/
def served (kind : AccKind) (t : Target) (st : Stage) : Access :=
  { inFlight with kind := kind, relaxed := false, parts := [part t 0x1000 8 st none] }

/-- A bank command on bank 0 of core 0: two rows of BKADD. -/
def bankCmd : BankCmd := ⟨0, 0x48, false, 0, 0, 0x1000, 2, 0, 0, .rne, false, []⟩

/-- The queues of bank 0 of core 0. -/
def banked (s : State) (b : Bank) : State := { s with cores := [(0, { Core.initial with banks := [(0, b)] })] }

/-- Request 0 of access 0 is about to be accepted. -/
def arriving (s : State) : Bool :=
  match s.partAt s.arg.who s.arg.what with
  | none => false
  | some (a, p) => decide (p.stage = .sent) && decide ((s.ctx a.gid).wait ≠ .accepted) && decide ((s.ctx a.gid).wait ≠ .probes) && !s.mustWait a p.tgt

theorem witness_RequestsAreAccepted :
    (let s := accState (served .store (.slice 0 64) .sent) id
     arriving s = true) ∧
    (let s := accState (served (.load 8 false) (.bank 0 0 0) .sent) id
     arriving s = true ∧ ((s.core 0).bank 0).accQ.length < 16 ∧ (s.cluster (clusterOf 0)).leasedCore ≠ some 0) ∧
    (let s := accState { served .bankCmd (.bank 0 0 0) .sent with bcmd := some bankCmd } id
     arriving s = true ∧ ((s.core 0).bank 0).cmdQ.length < 4) ∧
    (let s := about { small id with accs := [served .store (.bank 0 0 0) .sent, { served .store (.bank 0 0 0) .sent with id := 1, seq := 1 }] } 1 0 .none
     ∃ a p, s.partAt s.arg.who s.arg.what = some (a, p) ∧ p.stage = .sent ∧ s.mustWait a p.tgt = true) ∧
    (let s := banked (accState (served .store (.bank 0 0 0) .sent) id) ⟨List.replicate 16 (0, 0), [], 0, 0, [], 0, none, 0⟩
     arriving s = true ∧ (s.cluster (clusterOf 0)).leasedCore ≠ some 0 ∧ 16 ≤ ((s.core 0).bank 0).accQ.length) ∧
    (let s := { accState { served .store (.bank 0 0 0) .sent with core := 1 } id with clusters := [(0, { Cluster.initial with leasedCore := some 0 })] }
     arriving s = true ∧ (s.cluster (clusterOf 0)).leasedCore = some 0 ∧ (s.acc 0).map (·.core) = some 1) :=
  ⟨by decide, by decide, by decide, ⟨_, _, rfl, by decide, by decide⟩, by decide, by decide⟩

/-- Bank 0 of core 0 has requests before it. -/
def before (s : State) (accQ : List (Nat × Nat)) (cmdQ : List BankCmd) : State := banked s ⟨accQ, cmdQ, 0, 0, [], 0, none, 0⟩

/-- A store of several requests, at a stage of the one at a slice. -/
def wholeStore (st : Stage) (fault : Option (Nat × Word)) : Access :=
  { served .store (.bank 0 0 0) .accepted with
    parts := [part (.bank 0 0 0) 0x1000 8 .accepted none, part (.slice 0 64) 0x1000 8 st none], fault := fault }

/-- The head of bank 0's queue is granted to a request of a core. -/
def accessTurn (s : State) : Bool :=
  s.grantClass ((s.core 0).bank 0) == some .access && (((s.core 0).bank 0).accQ.head?.bind fun x => proberOf x.1).isNone

/-- A command of access 0 is granted. -/
def commandTurn (s : State) : Bool :=
  s.grantClass ((s.core 0).bank 0) == some .command && ((s.core 0).bank 0).cmdQ.all fun c =>
    (s.acc c.acc).any (fun a => !a.whole && !s.fenced 0 a.domain a.domGen) && !s.rowPoison 0 c

theorem witness_BankGrantServesOne :
    (let s := { banked (small id) ⟨[(0, 0)], [], 0, 3, [], 0, none, 0⟩ with arg := ⟨0, 1, 0, .none⟩ }
     s.arg.what ≠ 0 ∧ ((s.core 0).bank 0).portQ = 3) ∧
    (let s := before (accState (served .store (.bank 0 0 0) .accepted) id) [(0, 0)] []
     accessTurn s = true ∧ ∃ a p, s.partAt 0 0 = some (a, p) ∧ a.kind = .store ∧ a.whole = false ∧
      s.fenced 0 a.domain a.domGen = false ∧ ((p.placesAt 0).any fun x => s.tag (x / 64) != 0) = false) ∧
    (∀ fault ∈ [none, some (Cause.objStore, 0x1000)], let a := wholeStore .served fault
     let s := before (accState a id) [(0, 0)] []
     accessTurn s = true ∧ s.partAt 0 0 = some (a, part (.bank 0 0 0) 0x1000 8 .accepted none) ∧
      a.whole = true ∧ a.allJudged = true ∧ ∀ q ∈ a.parts, q.places = []) ∧
    (let a := wholeStore .accepted none
     a.whole = true ∧ a.allJudged = false) ∧
    (let s := { before (accState (served .store (.bank 0 0 0) .accepted) id) [(0, 0)] [] with tags := [(slabPlace 0 0 / 64, 1)] }
     accessTurn s = true ∧ ((part (.bank 0 0 0) 0x1000 8 .accepted none).placesAt 0).any (fun x => s.tag (x / 64) != 0) = true) ∧
    (let s := { before (accState (served .store (.bank 0 0 0) .accepted) id) [(0, 0)] [] with
       dies := [(0, { Die.initial with fences := [(0, 1)] })] }
     accessTurn s = true ∧ s.fenced (dieOfCore 0) 0 0 = true) ∧
    (let s := before (accState (served (.load 8 false) (.bank 0 0 0) .accepted) id) [(0, 0)] []
     accessTurn s = true ∧ ((part (.bank 0 0 0) 0x1000 8 .accepted none).placesAt 0).any (fun x => s.poison.contains (x / 64)) = false) ∧
    (∀ op ∈ [0x48, 0x4C, 0x4F], ∀ row ∈ [0, 1],
     commandTurn (before (accState (served .bankCmd (.bank 0 0 0) .accepted) id) [] [{ bankCmd with op := op, row := row }]) = true) ∧
    (commandTurn (before (accState (served .bankCmd (.bank 0 0 0) .accepted) id) [] [{ bankCmd with op := 0x4C, rows := 1 }]) = true) ∧
    (let s := banked (small id) ⟨[], [], 0, 0, [(0, 1)], 0, none, 0⟩
     s.grantClass ((s.core 0).bank 0) = some .matrix ∧ ((s.core 0).bank 0).nextUnit = some 0) ∧
    (let s := banked (small id) ⟨[], [], 1, 0, [], 0, none, 0⟩
     s.grantClass ((s.core 0).bank 0) = some .copy) :=
  ⟨by decide, ⟨by decide, _, _, rfl, by decide, by decide, by decide, by decide⟩, by decide, by decide, by decide +kernel,
    by decide, by decide, by decide, by decide, by decide, by decide⟩

/-- A slice's record for slice 0. -/
def sliced (s : State) (sl : Slice) : State := { s with slices := [(0, sl)] }

/-- A line of L2 with all its sectors valid, under a page entry. -/
def l2Line (entry : Word) : L2Line := ⟨16, entry, 15, 0⟩

/-- A load of the member sector at 0x100, of a barrier whose header stands at 0xC0, before the port of slice 1. -/
def memberState : State :=
  let p := { part (.slice 1 4) 0x100 8 .accepted none with bytes := (List.range 8).map fun k => (0x100 + k, k) }
  { about (accState { served (.load 8 false) (.slice 1 4) .accepted with parts := [p] } id) 1 0 .none with
    slices := [(1, { Slice.initial with inQ := [.part 0 0], l2 := [⟨1, 0x1F, 15, 0⟩] })]
    tags := [(framePlace 0 0xC0 0 / 64, 2), (framePlace 0 0x100 0 / 64, 3)] }

/-- Request 0 of access 0, of the sector 64 of slice 0, stands before the data port, and L2 holds the sector under an entry. -/
def beforePort (a : Access) (entry : Word) : State :=
  sliced (accState a id) { Slice.initial with inQ := [.part 0 0], l2 := [l2Line entry] }

/-- The data port serves it from L2. -/
def atPort (s : State) (entry : Word) : Bool :=
  decide (s.arg.what = 0) && decide ((s.slice 0).dataAt ≤ s.cycle) && decide ((s.slice 0).inQ = [.part 0 0]) &&
    decide ((s.slice 0).line (64 / 4) = some (l2Line entry)) && bits entry 5 5 == 0 && (l2Line entry).valid.getLsbD (64 % 4) &&
    ((s.slice 0).chanQ ++ (s.slice 0).filling).isEmpty && !s.heldBack (.part 0 0) &&
    ((s.partAt 0 0).any fun x => decide (x.2.tgt = .slice 0 64) && (x.2.placesAt entry).all fun y => s.tag (y / 64) == 0)

/-- The line of that sector moves: its channel is leased. -/
def lineMoves (s : State) : State :=
  { s with
    slices := s.slices.map fun x => (x.1, { x.2 with leased := true, moveNext := s.lineSlotOf 0 64 })
    assay := { s.assay with leases := [⟨2000, .channel, 0, 0, 0, 0, 0, 0, 2, 0, 0⟩] } }

theorem witness_SliceStepsServe :
    (∀ kind ∈ [AccKind.store, .load 8 false], let s := beforePort (served kind (.slice 0 64) .accepted) 0x1F
     atPort s 0x1F = true ∧ s.lineMoving 0 64 = false ∧ s.pageGrants 0 0x1F 2 = true ∧ s.pageGrants 0 0x1F 1 = true ∧
      s.forwardTo 0 (.part 0 0) 0x1F = none ∧ s.fenced 0 0 0 = false ∧ (served kind (.slice 0 64) .accepted).whole = false ∧ s.poison = []) ∧
    (let s := lineMoves (beforePort (served .store (.slice 0 64) .accepted) 0x1F)
     atPort s 0x1F = true ∧ s.lineMoving 0 64 = true ∧ s.pageGrants 0 0x1F 2 = true) ∧
    (let a := { served .store (.slice 0 64) .accepted with parks := true }
     atPort (beforePort a 0x1F) 0x1F = true ∧ a.whole = true ∧ a.parts = [part (.slice 0 64) 0x1000 8 .accepted none] ∧ a.fault = none) ∧
    (let p := part (.slice 0 64) 0x1000 8 .accepted none
     let a := { served .store (.slice 0 64) .accepted with parts := [p, p] }
     atPort (beforePort a 0x1F) 0x1F = true ∧ a.whole = true ∧ ∃ q, a.parts[1]? = some q ∧ q.judged = true ∧ q.stage ≠ .served) ∧
    (let s := memberState
     s.heldBack (.part 0 0) = false ∧ s.pageGrants 0 0x1F 1 = true ∧ s.forwardTo s.arg.who (.part 0 0) 0x1F = some 0 ∧
      (s.slice 1).line (4 / 4) = some ⟨1, 0x1F, 15, 0⟩ ∧ s.lineMoving 1 4 = false) ∧
    (let s := { small id with arg := ⟨0, forwardMark + 3, 1, .none⟩ }
     s.arg = ⟨s.arg.who, forwardMark + 3, 1, .none⟩) ∧
    (∀ relaxed ∈ [true, false], let a := { served (.load 8 false) (.slice 0 64) .accepted with relaxed := relaxed }
     atPort (beforePort a 0x19) 0x19 = true ∧ (beforePort a 0x19).pageGrants 0 0x19 1 = false ∧ a.fault = none) ∧
    (let s := sliced (accState (served (.load 8 false) (.slice 0 64) .accepted) id) { Slice.initial with inQ := [.part 0 0] }
     (s.slice 0).line (64 / 4) = none ∧ (∀ x ∈ (s.slice 0).tlb, x.1 ≠ 64 / 2 ^ 19) ∧ 64 / 2 ^ 19 ∉ (s.slice 0).walks ∧
      64 / 2 ^ 19 ∉ (s.slice 0).walkQ ∧ (s.slice 0).walks.length < 64) ∧
    (let s := about (sliced (small id) { Slice.initial with walks := [0] }) 0 0 .none
     s.arg.what ∈ (s.slice 0).walks ∧ (s.slice 0).merged = [] ∧ s.entryUsable 0 (s.pageEntry 0 0) = false) ∧
    (let s := { about (sliced (small id) { Slice.initial with walks := [0] }) 0 0 .none with mem := [(hbmPlace 0 0 0 0 0, 1)] }
     s.arg.what ∈ (s.slice 0).walks ∧ s.entryUsable 0 (s.pageEntry 0 0) = true) ∧
    (∀ r ∈ [SliceReq.part 0 0, .writeBack], let s := sliced (small id) { Slice.initial with chanQ := [(64, r)] }
     (s.slice 0).chanQ = [(64, r)] ∧ (s.slice 0).filling.length < 64 ∧ s.lineMoving 0 64 = false) ∧
    (let s := about (sliced (accState (served (.load 8 false) (.slice 0 64) .accepted) id)
       { Slice.initial with filling := [(0, .part 0 0)], tlb := [(0, 0x1F)] }) 0 0 .none
     (s.slice 0).filling = [(s.arg.what, .part 0 0)] ∧ (s.partAt 0 0).isSome = true ∧ bits (s.entryOf 0 (64 * 0)) 5 5 = 0 ∧
      s.entryUsable 0 (s.entryOf 0 (64 * 0)) = true) ∧
    (let s := about (sliced (accState (served (.load 8 false) (.slice 0 64) .accepted) id)
       { Slice.initial with filling := [(0, .merge)], joined := [(0, .part 0 0)] }) 0 0 .none
     (s.slice 0).filling = [(s.arg.what, .merge)] ∧ (s.slice 0).joined = [(s.arg.what, .part 0 0)] ∧ (s.partAt 0 0).isSome = true) ∧
    (let s := about (accState (served (.load 8 false) .host .accepted) id) 0 0 (.bytes [1] false)
     (s.partAt s.arg.who s.arg.what).any (fun x => decide (x.2.stage = .accepted) && !x.1.whole) = true ∧ s.arg.ext = .bytes [1] false) := by
  refine ⟨?_, ?_, ?_, ?_, ?_, ?_, ?_, ?_, ?_, ?_, ?_, ?_, ?_, ?_⟩ <;> decide +kernel

/-- A request of context 0 for the object at address 0, at home in slice 0. -/
def objReq (op : Nat) (x : Word) (nw : Bool) (vf : Nat) : ObjReq :=
  ⟨5, op, 0, x, 0, false, nw, false, false, .module, 0, 0, 0, 0, 15, 0, 0, 0, vf, none, []⟩

/-- The place of address 0, under a page entry that grants everything. -/
def place0 : Nat := framePlace 0 0 0

/-- Slice 0 about to take a request, with words at the object and its tag. -/
def homeState (r : ObjReq) (tag : Nat) (ws : List Nat) (waits : List WaitEntry) : State :=
  { about (small id) 0 0 .none with
    tags := if tag = 0 then [] else [(place0 / 64, tag)]
    mem := (ws.zip (List.range 16)).foldl (fun m x => memWrite m (place0 + 8 * x.2) (bytesOfNat 8 x.1)) []
    slices := [(0, { Slice.initial with objQ := [r], tlb := [(0, 0x1F)], waits := waits })] }

/-- A request that a home is about to take; each line it needs is given with its slice and its place there. -/
def atHome (s : State) (r : ObjReq) (lines : List (Word × Nat × Nat)) : Bool :=
  decide (s.arg.what = 0 ∧ (s.slice s.arg.who).objAt ≤ s.cycle) && decide ((s.slice s.arg.who).objQ = [r]) &&
    decide (homeSlice r.addr = s.arg.who ∧ r.op ≠ 0) && decide (s.objectWaits s.arg.who r = false) &&
    decide (globalLines (r.addr :: r.copyAsks (s.object r.addr)) = lines.map (·.1)) &&
    (lines.all fun x => homeDie x.1 == 0 && homeSlice x.1 == x.2.1 && bits x.1 44 0 == x.2.2 && !s.mustWalk 0 x.2.2 &&
      !s.lineMoving x.2.1 (x.2.2 / 64)) &&
    s.pageOk r && !s.fencedReq r && decide (s.sectorOf r.addr ∉ s.poison ∧ s.objectPoisoned r.addr (s.object r.addr) = false) &&
    decide (r.op < 0x40 → r.addr.toNat % 64 = 0) && decide (r.ctxid < 0xFFFFFF00 ∧ r.eng = 0 ∧ r.parts = []) && decide (memWf s.mem)

theorem atHome_of {s : State} {r : ObjReq} {ls : List (Word × Nat × Nat)} (h : atHome s r ls = true) : s.AtHome r := by
  simp only [atHome, Bool.and_eq_true, decide_eq_true_eq, Bool.not_eq_true', List.all_eq_true, beq_iff_eq] at h
  obtain ⟨⟨⟨⟨⟨⟨⟨⟨⟨⟨⟨h1, h2⟩, h3⟩, h4⟩, h5⟩, h6⟩, h7⟩, h8⟩, h9⟩, h10⟩, h11⟩, h12⟩ := h
  refine ⟨h1, h2, h3.1, h3.2, h4, fun a ha => ?_, h7, h8, h9, h10, h11, h12⟩
  obtain ⟨x, hx, rfl⟩ := List.mem_map.mp (h5 ▸ ha)
  obtain ⟨⟨⟨⟨hd, hs⟩, hb⟩, hw⟩, hm⟩ := h6 x hx
  rw [hd, hs, hb]
  exact ⟨hw, hm⟩

/-- One that needs the line at address 0 alone. -/
def atHome0 (s : State) (r : ObjReq) : Bool := atHome s r [(0, 0, 0)]

theorem steady_of {r : ObjReq} {tag : Nat} {ws : List Nat} {waits : List WaitEntry} {l : List Nat} :
    (homeState r tag ws waits).Steady 0 l := fun _ _ => rfl

theorem witness_HomesGrantRequests :
    (let r := objReq 0x2B 3 false 0
     let s := homeState r 1 [] []
     let p := s.placeOf r.addr
     atHome0 s r = true ∧ s.waitsOf r.addr = [] ∧ (s.slice s.arg.who).abandoned = [] ∧ s.Steady r.addr [p / 64] ∧ s.tag (p / 64) = 1 ∧
      ∃ u, objRule r.op (wordAt s.mem p) (wordAt s.mem (p + 8)) r.operand = some (1, u) ∧ u.holds = true) ∧
    (let r := objReq 0x2C 1 true 0
     let s := homeState r 1 [] []
     let p := s.placeOf r.addr
     atHome0 s r = true ∧ s.waitsOf r.addr = [] ∧ s.tag (p / 64) = 1 ∧ r.nw = true ∧
      (objRule r.op (wordAt s.mem p) (wordAt s.mem (p + 8)) r.operand).map (fun u => (u.1, u.2.holds)) = some (1, false)) ∧
    (let r := objReq 0x2C 1 false 0
     let s := homeState r 1 [] []
     atHome0 s r = true ∧ r.nw = false ∧ s.waitRoom r = some false) ∧
    (let r := objReq 0x2C 1 false 1
     let s := homeState r 1 [] []
     atHome0 s r = true ∧ r.nw = false ∧ s.waitRoom r = none) :=
  ⟨⟨by decide +kernel, by decide, by decide, steady_of, by decide +kernel, _, rfl, rfl⟩, by decide +kernel, by decide +kernel, by decide +kernel⟩

/-- A CWAIT of context 4 that waits for 3 at address 0. -/
def waiting3 : WaitEntry := ⟨0, { objReq 0x2C 3 false 0 with ctxid := 4 }, 0, false, false, 0⟩

/-- A state without pages at hand, whose frame table grants everything. -/
def unwalked (r : ObjReq) : State :=
  { homeState r 1 [] [] with
    slices := [(0, { Slice.initial with objQ := [r] })], mem := memWrite [] (hbmPlace 0 0 0 0 0) (bytesOfNat 8 0x1F) }

theorem witness_HomesServeObjects :
    (∃ (s : State) (n : Nat) (r : ObjReq), s.arg.what = n + 1 ∧ s.msg n = some (.request r)) ∧
    (let r := objReq 0x2B 3 false 0
     let s := unwalked r
     (s.slice 0).objAt ≤ s.cycle ∧ s.objectWaits 0 r = false ∧ r.op ≠ 0 ∧ s.mustWalk (homeDie r.addr) (bits r.addr 44 0) = true ∧
      s.lineMoving 0 (bits (r.addr &&& ~~~0xFF) 44 0 / 64) = false ∧ (s.slice 0).walking (bits r.addr 44 0 / 2 ^ 25) = false) ∧
    (let r := { objReq 0x2B 3 false 0 with id := 9 }
     let s := { homeState r 1 [] [] with accs := [served .store (.slice 0 0) .sent] }
     (s.slice 0).objQ = [r] ∧ s.objectWaits 0 r = true) ∧
    (let r := objReq 0x2B 3 false 0
     let s := homeState r 1 [] [waiting3]
     atHome0 s r = true ∧ s.tag (s.placeOf r.addr / 64) = 1 ∧ s.Steady r.addr [s.placeOf r.addr / 64] ∧
      (s.slice s.arg.who).waits = [waiting3] ∧ waiting3.addr = waitKey r.addr ∧ waiting3.req.ctxid < 0xFFFFFF00 ∧
      0 ≤ (wordAt s.mem (s.placeOf r.addr) + r.operand - waiting3.req.operand).toInt) ∧
    (let r := objReq 0x2B 2 false 0
     let s := homeState r 1 [] [waiting3]
     atHome0 s r = true ∧ (wordAt s.mem (s.placeOf r.addr) + r.operand - waiting3.req.operand).toInt < 0) ∧
    (∀ op ∈ [0x40, 0x47], ∀ w32 ∈ [true, false], let r := { objReq op 3 false 0 with w32 := w32 }
     let s := homeState r 0 [] []
     atHome0 s r = true ∧ s.tag (s.placeOf r.addr / 64) = 0 ∧ r.addr.toNat % 8 = 0) ∧
    (let r := objReq 0x40 3 false 0
     let s := homeState r 1 [] []
     atHome0 s r = true ∧ s.tag (s.placeOf r.addr / 64) ≠ 0) ∧
    (let r := objReq 0x29 0 false 0
     let s := homeState r 1 [7] []
     atHome0 s r = true ∧ s.tag (s.placeOf r.addr / 64) = 1 ∧ (wordAt s.mem (s.placeOf r.addr + 8 * 7)).toNat % 2 ^ 32 = 0 ∧
      rising 0 s.tags = true) ∧
    (let r := objReq 0x29 0 false 0
     let s := homeState r 1 [0, 0, 0, 0, 0, 0, 0, 1] []
     atHome0 s r = true ∧ (wordAt s.mem (s.placeOf r.addr + 8 * 7)).toNat % 2 ^ 32 ≠ 0) ∧
    (let r := { objReq 0x2A 0 false 0 with addr := 0x100 }
     let s := { homeState r 0 [] [] with
       arg := ⟨1, 0, 0, .none⟩, slices := [(1, { Slice.initial with objQ := [r], tlb := [(0, 0x1F)] })]
       tags := [(framePlace 0 0xC0 0 / 64, 2), (framePlace 0 0x100 0 / 64, 3)] }
     atHome s r [(0x100, 1, 0x100)] = true ∧ s.holderSlice (s.sectorOf r.addr) = 0) ∧
    (∀ k ∈ [0, 7, 8, 9], let r := objReq 0x2A (word k) false 0
     let s := homeState r 1 [] []
     atHome0 s r = true ∧ r.operand.toNat % 16 = k ∧ s.holderSlice (s.sectorOf r.addr) = s.arg.who) ∧
    (let r := objReq 0x31 0 false 0
     let s := homeState r 4 [] []
     atHome0 s r = true ∧ s.tag (s.placeOf r.addr / 64) = 4 ∧ s.waitsOf r.addr = [] ∧ s.Steady r.addr [s.placeOf r.addr / 64] ∧
      wordAt s.mem (s.placeOf r.addr + 8 * 1) = wordAt s.mem (s.placeOf r.addr + 8 * 0)) ∧
    (let r := objReq 0x31 0 true 0
     let s := homeState r 4 [1] []
     atHome0 s r = true ∧ s.tag (s.placeOf r.addr / 64) = 4 ∧ r.nw = true ∧
      wordAt s.mem (s.placeOf r.addr + 8 * 1) ≠ wordAt s.mem (s.placeOf r.addr + 8 * 0)) :=
  ⟨⟨about { small id with net := [⟨3, .request (objReq 0x2B 3 false 0)⟩] } 0 4 .none, 3, _, rfl, rfl⟩,
    by decide +kernel, by decide +kernel,
    ⟨by decide +kernel, by decide +kernel, steady_of, by decide, by decide, by decide, by decide +kernel⟩,
    by decide +kernel, by decide +kernel, by decide +kernel, by decide +kernel, by decide +kernel, by decide +kernel, by decide +kernel,
    ⟨by decide +kernel, by decide +kernel, by decide, steady_of, by decide +kernel⟩, by decide +kernel⟩

/-- The sector behind the object is free to become its member sector. -/
abbrev free1 (s : State) : Prop := bits (0 : Word) 44 0 / 2 ^ 25 = (bits (0 : Word) 44 0 + 64 * 1) / 2 ^ 25 ∧ s.tag (s.sectorOf (0 + word 64)) = 0

theorem laid_of {r : ObjReq} {tag n : Nat} {ws : List Nat} {waits : List WaitEntry} (h : ((homeState r tag ws waits).laidSectors 0 n).Nodup)
    (hn : n = 0 ∨ n = 1) : (homeState r tag ws waits).Laid 0 n :=
  ⟨h, fun i hi => by
    rcases hn with rfl | rfl
    · obtain rfl := Nat.le_zero.mp hi; exact fun _ _ => rfl
    · obtain rfl | rfl : i = 0 ∨ i = 1 := by omega
      · exact fun _ _ => rfl
      · exact fun _ _ => rfl⟩

theorem counter_image {die : Nat} {d : Nat → Word} (h : ∀ k, k < 8 → 1 ≤ k → d k = 0) : Image die 1 d :=
  ⟨h 7 (by decide) (by decide), .inl ⟨rfl, fun k h1 h2 => h k (by omega) h1⟩⟩

theorem barrier_image {die : Nat} {d : Nat → Word}
    (h : d 7 = 0 ∧ 1 ≤ (d 0).toNat ∧ (d 0).toNat ≤ 4096 ∧ (d 1).toNat / 2 ^ 32 = (d 1).toNat % 2 ^ 32 ∧ d 2 = 0 ∧ (d 3).toNat < 2 ^ 57 ∧
      (d 4).toNat < 4096 ∧ (d 3 = 0 → d 4 = 0) ∧ d 5 = 0 ∧ d 6 = 0) : Image die 2 d := ⟨h.1, .inr (.inl ⟨rfl, h.2⟩)⟩

/-- Word k of the object at address 0. -/
def at0 (s : State) (k : Nat) : Word := wordAt s.mem (s.placeOf 0 + 8 * k)

/-- A barrier of 4 members whose member 0 has arrived 3 times. -/
def barrier4 : List Nat := [4, 0, 1, 0, 0, 0, 0, 0, 3]

/-- The answer of a parent's home to an OINIT of address 0. -/
def initAnswer (nw : Bool) : ObjReq := { objReq 0 0 nw 0 with addr := 0x4000, expect := 9, lane := 0x28 }

/-- A queue whose ring of 4 entries stands at 0x40, with HEAD and TAIL. -/
def queue (code head tail : Nat) : List Nat := [0x40, 4 + 2 ^ 32 * code, head, tail]

/-- What the clause of queues asks of a request that is at home. -/
def copies (r : ObjReq) (s : State) (code n : Nat) : Bool :=
  let k := if r.op = 0x33 then at0 s 3 else at0 s 2
  let slot := fun i => s.placeOf (word (bits (at0 s 0) 56 0 + k.toNat % 4 * n) + word i)
  let wr := (List.range n).map fun i => if r.op = 0x33 then slot i else if n = 8 then s.placeOf 0 else s.placeOf (r.operand + word i)
  decide (s.tag (s.placeOf 0 / 64) = 5) && decide (s.waitsOf 0 = []) && (at0 s 1).toNat / 2 ^ 32 % 8 == code &&
    decide ([8, 16, 32, 64, 256].getD code 0 = n) && decide ((at0 s 1).toNat % 2 ^ 17 = 4) &&
    (if r.op = 0x33 then decide ((at0 s 3 - at0 s 2).toNat < 4) else decide (0 < (at0 s 3 - at0 s 2).toNat)) &&
    decide (s.copyCause r (s.object 0) = none) && !s.ringPoison r (s.object 0) &&
    (decide (r.op ≠ 0x33 ∧ n = 8) || (decide wr.Nodup && !(wr.map (· / 64)).contains (s.placeOf 0 / 64)))

theorem witness_HomesInitArriveAndQueue :
    (∀ nw ∈ [true, false], let r := objReq 0x28 2 false 0
     let q := initAnswer nw
     let s := { homeState q 0 [1, 0, 0, 0x4000, 9] [] with
       slices := [(0, { Slice.initial with objQ := [q], asking := [r], tlb := [(0, 0x1F)] })] }
     memWf s.mem ∧ s.tag (s.placeOf 0 / 64) = 0 ∧ free1 s ∧ at0 s 0 = 1 ∧ at0 s 3 = q.addr ∧ at0 s 4 = q.expect ∧
      (s.laidSectors 0 1).Nodup ∧ bits q.addr 63 46 = Config.moduleNumber ∧ q.addr.toNat % 64 = 0 ∧ q.addr ≠ 0) ∧
    (let r := objReq 0x28 1 false 0
     let s := homeState r 0 [9] []
     atHome0 s r = true ∧ s.tag (s.placeOf 0 / 64) = 0 ∧ Image 0 1 (at0 s) ∧ s.Laid 0 0) ∧
    (let r := objReq 0x28 2 false 0
     let s := homeState r 0 [256] []
     atHome0 s r = true ∧ s.tag (s.placeOf 0 / 64) = 0 ∧ Image 0 2 (at0 s) ∧ at0 s 3 = 0 ∧ free1 s ∧ s.Laid 0 1) ∧
    (let r := objReq 0x28 2 false 0
     let s := homeState r 0 [1, 0, 0, 0x4000, 9] []
     atHome0 s r = true ∧ s.tag (s.placeOf 0 / 64) = 0 ∧ Image 0 2 (at0 s) ∧ free1 s ∧ at0 s 3 ≠ 0 ∧
      bits (at0 s 3) 63 46 = Config.moduleNumber ∧ (at0 s 3).toNat % 64 = 0) ∧
    (let r := objReq 0x28 1 false 0
     let s := homeState r 1 [9] []
     atHome0 s r = true ∧ s.tag (s.placeOf 0 / 64) ≠ 0) ∧
    (let r := objReq 0x28 1 false 0
     let s := homeState r 0 [9, 0, 0, 0, 0, 0, 0, 1] []
     atHome0 s r = true ∧ ¬ Image 0 1 (at0 s)) ∧
    (let r := objReq 0x28 2 false 0
     let s := { homeState r 0 [1] [] with tags := [(place0 / 64 + 1, 1)] }
     atHome0 s r = true ∧ ¬ s.MembersFree 0 1) ∧
    (∀ parent ∈ [2 ^ 46, 0x4008], let r := objReq 0x28 2 false 0
     let s := homeState r 0 [1, 0, 0, parent] []
     atHome0 s r = true ∧ at0 s 3 ≠ 0 ∧ (bits (at0 s 3) 63 46 ≠ Config.moduleNumber ∨ (at0 s 3).toNat % 64 ≠ 0)) ∧
    (∀ op ∈ [0x2E, 0x30], ∀ nw ∈ [true, false], ∀ m ∈ [1, 3], let r := objReq op (word m) nw 0
     let s := homeState r 2 (barrier4) []
     atHome0 s r = true ∧ s.tag (s.placeOf 0 / 64) = 2 ∧ s.waitsOf 0 = [] ∧ (s.laidSectors 0 1).Nodup ∧ memberSectors (s.object 0).members = 1 ∧
      r.operand.toNat < (s.object 0).members ∧ (s.object 0).lead r.operand.toNat < 3 ∧ (s.waitRoom r).isSome = true) ∧
    (∀ nw ∈ [true, false], let r := objReq 0x30 0 nw 0
     let s := homeState r 2 (barrier4) []
     atHome0 s r = true ∧ (s.object 0).lead 0 = 3 ∧ (s.waitRoom r).isSome = true) ∧
    (let r := objReq 0x2E 4 false 0
     let s := homeState r 2 (barrier4) []
     atHome0 s r = true ∧ (s.object 0).members ≤ r.operand.toNat) ∧
    (∀ x ∈ [0, 1], let r := objReq 0x2F (word x) true 0
     let s := homeState r 2 (barrier4) []
     atHome0 s r = true ∧ s.waitsOf 0 = [] ∧ (decide (0 ≤ ((s.object 0).phase - r.operand.setWidth 32).toInt)) = (x == 0)) ∧
    (let r := objReq 0x33 77 false 0
     let s := homeState r 5 (queue 0 0 0) []
     atHome0 s r = true ∧ copies r s 0 8 = true) ∧
    (let r := objReq 0x33 0x80 false 0
     let s := homeState r 5 (queue 1 1 4) []
     atHome0 s r = true ∧ copies r s 1 16 = true) ∧
    (let r := objReq 0x34 0 false 0
     let s := homeState r 5 (queue 0 0 4) []
     atHome0 s r = true ∧ copies r s 0 8 = true) ∧
    (let r := objReq 0x34 0x80 false 0
     let s := homeState r 5 (queue 3 0 4) []
     atHome0 s r = true ∧ copies r s 3 64 = true ∧ s.Steady r.addr [0]) :=
  ⟨by decide +kernel,
    ⟨by decide +kernel, by decide +kernel, counter_image (by decide +kernel), laid_of (by decide +kernel) (.inl rfl)⟩,
    ⟨by decide +kernel, by decide +kernel, barrier_image (by decide +kernel), by decide +kernel, by decide +kernel,
      laid_of (by decide +kernel) (.inr rfl)⟩,
    ⟨by decide +kernel, by decide +kernel, barrier_image (by decide +kernel), by decide +kernel⟩,
    by decide +kernel, ⟨by decide +kernel, fun h => absurd h.1 (by decide +kernel)⟩,
    ⟨by decide +kernel, fun h => absurd (h.2 0 (by decide)) (by decide +kernel)⟩, by decide +kernel, by decide +kernel, by decide +kernel,
    by decide +kernel, by decide +kernel, by decide +kernel, by decide +kernel, by decide +kernel, ⟨by decide +kernel, by decide +kernel, steady_of⟩⟩

/-- Context 0 with an event about it that brings a message of the network. -/
def netState (b : NetBody) (f : Ctx → Ctx) : State := about { small f with net := [⟨0, b⟩], nextId := 9 } 0 0 .none

/-- A context parked for a reply, its tail's effect held. -/
def asking (reg : Bool) (c : Ctx) : Ctx := { c with st := .parked, wait := .object 5 reg, heldTail := some Effect.none, tvecS := 0x8000 }

theorem witness_RepliesReachRequesters :
    (let r := objReq 0x2C 3 false 0
     let s := netState (.objReply r 0 7 0) (asking false)
     let c := s.ctx r.ctxid
     s.msg s.arg.what = some (.objReply r 0 7 0) ∧ r.window = none ∧ r.eng = 0 ∧ s.sameCtx r.ctxid r.gen = true ∧
      c.wait = .object r.id false ∧ c.st = .parked ∧ c.slot ≠ none ∧ c.heldTail = some Effect.none ∧ c.EntersNow Cause.objType) ∧
    (let r := objReq 0x2C 3 true 0
     r.nw = true ∧ r.ret = false ∧ alwaysRet r.op = false ∧ alwaysRet 0x38 = true) ∧
    (let r := objReq 0x2C 3 false 0
     let s := netState (.wakeUp r 7 0) (asking true)
     s.msg s.arg.what = some (.wakeUp r 7 0) ∧ s.sameCtx r.ctxid r.gen = true ∧ s.wakeHeld r = false ∧
      (s.ctx r.ctxid).wait = .object r.id true ∧ (s.ctx r.ctxid).st = .parked ∧ (s.ctx r.ctxid).slot ≠ none) ∧
    (let r := objReq 0x2C 3 false 0
     let s := { netState (.wakeUp r 7 0) (asking true) with clusters := [(0, { Cluster.initial with leasedCore := some 0 })] }
     s.msg s.arg.what = some (.wakeUp r 7 0) ∧ s.wakeHeld r = true) ∧
    (let r := objReq 0x2C 3 false 0
     let s := netState (.wakeUp r 7 0) fun c => { asking true c with st := .cached, slot := none }
     (s.ctx r.ctxid).st = .cached ∧ s.swappedOut r.ctxid = false ∧ s.sameCtx r.ctxid r.gen = true ∧ s.wakeHeld r = false) ∧
    (let s := { homeState (objReq 0 0 false 0) 2 [] [] with net := [⟨0, .wakeUp (objReq 0x2E 0 false 0) 0 Cause.objType⟩] }
     s.msg s.arg.what = some (.wakeUp (objReq 0x2E 0 false 0) 0 Cause.objType)) ∧
    (let r := objReq 0 0 true 0
     let s := homeState r 2 [] []
     s.arg.what = 0 ∧ (s.slice 0).objAt ≤ s.cycle ∧ (s.slice 0).objQ = [r] ∧ r.op = 0 ∧ r.lane ≠ 0x28 ∧ s.waitsOf r.operand = []) ∧
    (let r := objReq 0 0 false 0
     let s := homeState r 1 [] []
     (s.slice 0).objQ = [r] ∧ s.tag (s.placeOf r.operand / 64) ≠ 2) ∧
    (∀ local_ ∈ [1, 3], let r := objReq 0 0 false 0
     let s := homeState r 2 [1, 2 ^ 32 * local_, 1, 0x4000, 0, 0, 0, 0, 1] []
     (s.slice 0).objQ = [r] ∧ s.tag (s.placeOf 0 / 64) = 2 ∧ memWf s.mem ∧ s.objectPoisoned 0 (s.object 0) = false ∧ s.waitsOf 0 = [] ∧
      memberSectors (s.object 0).members = 1 ∧ (s.laidSectors 0 1).Nodup ∧ (s.object 0).parent ≠ 0 ∧
      ((s.object 0).local_ - (s.object 0).phase).toNat = local_) ∧
    (let s := homeState (objReq 0 0 false 0) 1 [] [{ waiting3 with spilled := true }]
     (s.slice s.arg.who).waits = [{ waiting3 with spilled := true }] ∧ waiting3.req.vf = 0 ∧ homeSlice waiting3.req.addr = s.arg.who ∧
      s.spillPoisoned { waiting3 with spilled := true } = false) :=
  ⟨⟨rfl, rfl, rfl, by decide, rfl, rfl, by decide, rfl, enters_of (by decide)⟩, by decide, by decide, by decide, by decide, by decide,
    by decide, by decide +kernel, by decide +kernel, by decide +kernel⟩

/-- A window request of function 0: CSET of the counter at 0x1000 to 3, reply to host address 0x40; or none, or an atomic's number. -/
def windowReq (op a : Nat) : WindowReq := ⟨word op, word a, 3, 0, 0x40, 9, 0, 0⟩

/-- Partition 0's host range: everything of its domain, with the right O. -/
def windowPart : Map Partition :=
  [(0, { Partition.initial with enable := true, hrange := Vector.replicate 16 0x3F11 })]

theorem witness_CombiningAndWindow :
    (let r := { objReq 0x2B 3 false 0 with id := 6, cmb := true }
     let e : SwitchEntry := ⟨{ objReq 0x2B 2 false 0 with parts := [(1, 2)] }, false, 0, 0⟩
     let s := { netState (.request r) id with dies := [(0, { Die.initial with switchQ := [e] })] }
     s.msg s.arg.what = some (.request r) ∧ (s.die s.arg.who).switchQ = [e] ∧ e.sent = false ∧ e.req.addr = r.addr ∧
      e.req.scope = r.scope ∧ (netState (.request r) id).msg 0 = some (.request r) ∧ ((netState (.request r) id).die 0).switchQ = []) ∧
    (let e : SwitchEntry := ⟨{ objReq 0x2B 2 false 0 with parts := [(1, 2)] }, false, 0, 0⟩
     let s := about { small id with dies := [(0, { Die.initial with switchQ := [e], outQ := [(0, [5])] })] } 0 0 .none
     (s.die s.arg.who).switchQ = [e] ∧ e.sent = false ∧ mapGet (s.die s.arg.who).outQ s.arg.what = some [e.req.id]) ∧
    (let a := objReq 0x2B 3 false 0
     let r := { a with parts := [(1, 2), (2, 3)] }
     let s := about { small id with net := [⟨0, .objReply r 0 7 0⟩, ⟨1, .request a⟩, ⟨2, .request a⟩], nextId := 9 } 0 0 .none
     s.msg s.arg.what = some (.objReply r 0 7 0) ∧ s.msg 1 = some (.request a) ∧ s.msg 2 = some (.request a) ∧ s.nextId ≠ 2) ∧
    (let w := windowReq 0x2D 0x1000
     let s := { small id with arg := ⟨0, 0, 64, .window w⟩, parts := windowPart }
     s.arg.ext = .window w ∧ s.arg.what % 64 = 0 ∧ w.h4.toNat % 16 = 0 ∧ windowIllegal w = false ∧
      bits w.h1 56 46 = Config.moduleNumber ∧ w.h1.toNat % 64 = 0 ∧ (s.windowObj 0 w).op < 0x40 ∧ (s.windowObj 0 w).cmb = false ∧
      Rights.cover (s.hostRights 0 w.h1) 8 = true ∧ s.hostWrites 0 = false ∧
      { s with agenda := [⟨9, .bar4Write, ⟨0, 0, 1, .bytes [] false⟩⟩] }.hostWrites 0 = true ∧ s.arg.val = 64) ∧
    (let w := windowReq 0x10 0x1000
     windowIllegal w = true ∧ w.h4 ≠ 0 ∧ bits w.h5 47 32 = 0 ∧ w.h4.toNat + 16 ≤ 2 ^ 64) := by decide +kernel

/-- A core with the given inbox. -/
def inboxed (s : State) (ms : List Message) : State := { s with cores := [(0, { Core.initial with inbox := ms })] }

/-- A Context parked for the answer of message 0, with a command held. -/
def answering (h : Option Held) (c : Ctx) : Ctx :=
  { c with st := .parked, wait := .answer, answer := some 0, held := h, heldTail := some Effect.none, tvecS := 0x8000 }

/-- An arrival-match entry of tag 7 for context 0, of 4 arrivals. -/
def match7 (wake : Bool) : MatchEntry := ⟨7, 0, 0, 4, 0, wake⟩

theorem witness_MessagesDeadlinesWatchdog :
    (let s := { netState (.user 1 message7 0 true) (fun c => { c with prv := false }) with
       ctxs := [(0, { Ctx.initial with st := .running, slot := some 0 }), (1, { Ctx.initial with st := .running, domain := 2 })] }
     s.msg s.arg.what = some (.user 1 message7 0 true) ∧ s.refuseUser 1 0 = some Cause.domain ∧
      (s.cluster (clusterOf (s.at 1))).leasedCore ≠ some (s.at 1)) ∧
    (let s := netState (.user 4 message7 0 true) id
     s.refuseUser 4 0 = none ∧ (s.ctx 4).st = .free) ∧
    (let s := netState (.user 0 message7 0 true) id
     message7.dest = 0 ∧ s.refuseUser 0 0 = none ∧ (s.ctx 0).st ≠ .free ∧ (s.core (s.at 0)).inbox.length < 64 ∧
      (∀ x ∈ (s.core (s.at 0)).saggarMsgs, x.dest ≠ 0) ∧ s.swappedOut 0 = false) ∧
    (let s := inboxed (netState (.user 0 message7 0 true) id) (List.replicate 64 message7)
     s.refuseUser 0 0 = none ∧ (s.ctx 0).st ≠ .free ∧ 64 ≤ (s.core (s.at 0)).inbox.length ∧ s.saggarRoomFor 0 32 = false) ∧
    (let s := netState (.posted 0 message7 1) id
     s.msg s.arg.what = some (.posted 0 message7 1) ∧ 0 / 2 ^ 22 = Config.moduleNumber) ∧
    (let s := { small (answering (some (.send 4 0 0 0 true))) with arg := ⟨0, 0, 1, .none⟩ }
     let c := s.ctx s.arg.who
     c.held = some (.send 4 0 0 0 true) ∧ c.wait = .answer ∧ c.answer = some s.arg.what ∧ c.heldTail = some Effect.none ∧
      s.arg.val < 2 ^ 8 ∧ c.st = .parked ∧ c.slot ≠ none ∧ c.EntersNow (2 ^ 8 * Cause.protection / 2 ^ 8)) ∧
    (let s := { small id with cores := [(0, { Core.initial with arrivals := [(3, match7 true)] })], arg := ⟨0, 7, 3, .none⟩ }
     (s.core s.arg.who).arrivals = [(3, match7 true)] ∧ (match7 true).tag.toNat = s.arg.what ∧
      (match7 true).count + s.arg.val < (match7 true).length ∧ (match7 true).length ≤ (match7 true).count + 4 ∧
      (s.ctx (match7 true).named).st = .running ∧ (s.ctx (match7 true).named).wait = .none) ∧
    (let s := { small id with cores := [(0, { Core.initial with saggarMsgs := [message7] })] }
     (s.core 0).inbox.length < 64 ∧ (s.core 0).saggarMsgs = [message7] ∧ s.swappedOut message7.dest = false) ∧
    (let s := small fun c => { c with st := .parked, wait := .waitt 0 }
     (s.ctx 0).wait = .waitt 0 ∧ (s.ctx 0).st = .parked ∧ (s.ctx 0).slot ≠ none ∧ 0 ≤ (s.time 0 - 0).toInt ∧ (s.time 0 - 5).toInt < 0) ∧
    (let s := small fun c => { c with st := .parked, wait := .recv, wlimit := 5 }
     (s.ctx 0).parkedAt = s.arg.what ∧ (s.ctx 0).resuming = false ∧ s.countFrozen 0 = false ∧ (s.ctx 0).wait.counted = true ∧
      (s.ctx 0).wcount + 1 ≠ (s.ctx 0).wlimit) ∧
    (let s := small fun c => { c with st := .parked, wait := .recv, wcount := 4, wlimit := 5 }
     s.countFrozen 0 = false ∧ (s.ctx 0).wait = .recv ∧ (s.ctx 0).wcount + 1 = (s.ctx 0).wlimit ∧ (s.ctx 0).wlimit ≠ 0) :=
  ⟨by decide, by decide, by decide, by decide +kernel, by decide, ⟨rfl, rfl, rfl, rfl, by decide, rfl, by decide, enters_of (by decide)⟩,
    by decide, by decide, by decide, by decide, by decide⟩

/-- Core 0 with an event about it, its slots taken by context 0 and others that stand for it. -/
def coreState (k : Core) (cs : Map Ctx) : State := { about (small id) 0 0 .none with parts := part1, cores := [(0, k)], ctxs := cs }

/-- Every slot is taken. -/
def fullSlots : Map SlotUse := (List.range Config.slots).map fun i => (i, ⟨some i, none, 0⟩)

/-- The first entry of core 0's queue is to be filled into a slot now. -/
def fillsNow (s : State) : Bool :=
  let k := s.core 0
  decide (s.arg.what = 0) && k.present && !k.leaseHold && !(s.cluster 0).halted && decide (k.fillAt ≤ s.cycle) &&
    decide (k.ready = [⟨4, 0, 0, 0, 0⟩]) && decide (k.freeSlots = List.range Config.slots) && k.tcc.contains 4 && (s.ctx 4).twin.isNone &&
    (s.ctx 4).kill.isNone && s.at 4 == 0

/-- Context 4 waits in core 0's ready queue. -/
def queued (tcc : List Nat) (slots : Map SlotUse) (cs : Map Ctx) : State :=
  coreState { Core.initial with ready := [⟨4, 0, 0, 0, 0⟩], tcc := tcc, slots := slots } cs

theorem witness_SlotsAreFilled :
    (∀ c ∈ [{ Ctx.initial with st := .ready }, { Ctx.initial with st := .ready, marker := true },
        { Ctx.initial with st := .ready, wait := .recv }, { Ctx.initial with st := .ready, wait := .recv, arrived := true }],
      fillsNow (queued [4] [] [(4, c)]) = true) ∧
    (∀ i, ((queued [4] [] []).core 0).slot i = SlotUse.initial) ∧
    (let s := coreState { Core.initial with fillAt := 1 } []
     s.cycle < (s.core 0).fillAt ∧ (s.core 0).present = true ∧ (s.core 0).leaseHold = false ∧ (s.cluster 0).halted = false) ∧
    (let s := about (queued [] [] [(4, { Ctx.initial with st := .ready })]) 0 4 .none
     (s.ctx 4).st = .ready ∧ s.at 4 = 0 ∧ (s.core 0).tcc.contains 4 = false ∧ (s.core 0).tcc.length < 48 ∧
      s.saggarPoisoned (dieOfCore 0) (s.saggarByte 4 0) 2048 = false) ∧
    (let v : Nat × Ctx := (0, { Ctx.initial with st := .parked, slot := some 0, pre := true, wait := .recv })
     let s := queued [] fullSlots [v]
     s.firstReady 0 ≠ none ∧ (s.core 0).freeSlots = [] ∧ (s.core 0).tcc.length < 48 ∧
      bestOf longerParked ((s.ctxsOf 0).filter fun x => x.2.displaceable) = some v ∧ (s.ctx v.1).slot = some 0 ∧ s.at v.1 = 0) ∧
    (let v : Nat × Ctx := (0, { Ctx.initial with st := .running, slot := some 0, pre := true })
     let s := { queued [] fullSlots [v, (4, { Ctx.initial with st := .ready })] with cycle := 65536 }
     let past := fun x : Nat × Ctx => s.preemptible 0 x.2 && decide (x.2.quantumEnd ≤ s.cycle)
     s.firstReady 0 ≠ none ∧ (s.core 0).freeSlots = [] ∧ ((s.ctxsOf 0).any fun x => x.2.leaves && past x) = false ∧
      bestOf firstVictim ((s.ctxsOf 0).filter fun x => past x && decide (x.2.st = .running)) = some v) ∧
    (let s := queued [] fullSlots [(0, { Ctx.initial with st := .running, slot := some 0, pre := true, leaves := true }),
       (4, { Ctx.initial with st := .ready })]
     s.coming = .turn 0 0 ∧ (s.ctx 0).async = [] ∧ s.stopped (s.at 0) = none ∧
      { s with cycle := 0, cur := 0 }.leavesNow 0 = true ∧ (s.ctx 0).slot = some 0) ∧
    (let s := { about (queued [] [] [(4, { Ctx.initial with st := .ready })]) 0 4 .none with cycle := 256 * (Ctx.initial).tquant.toNat }
     0 + 256 * (s.ctx 4).tquant.toNat = s.cycle ∧ ¬ 256 * (s.ctx 4).tquant.toNat ≤ s.cycle - 1) := by
  refine ⟨by decide +kernel, fun _ => rfl, ?_⟩
  decide +kernel

/-- A context that waits to end: drained, or killed. -/
def ending (c : Ctx) : Ctx := { c with st := .parked, wait := .drain, join := 0x40 }

/-- A search of core 0 in a cluster of its partition. -/
def thiefState (t : Thief) (d : List TaskRec) : State :=
  { about (small id) 0 1 .none with
    parts := part1
    dies := [(0, { Die.initial with smax := [(1, 3)] })]
    cores := [(0, { Core.initial with thief := t }), (1, { Core.initial with deque := d })] }

theorem witness_ContextsBeginAndEnd :
    (let s := netState (.create 0 0 Ctx.initial 5) id
     s.msg s.arg.what = some (.create 0 0 Ctx.initial 5) ∧ (s.cluster (clusterOf 0)).halted = false ∧ s.freeNum 0 = some 1 ∧
      s.accepts 0 = true ∧ (s.core 0).freeSlots ≠ [] ∧ { s with cores := [(0, { Core.initial with acceptAt := 1 })] }.accepts 0 = false) ∧
    (let s := { netState (.create 0 0 Ctx.initial 5) id with
       cores := [(0, { Core.initial with slots := fullSlots, ready := List.replicate 256 ⟨4, 0, 0, 0, 0⟩ })] }
     s.freeNum 0 = some 1 ∧ s.accepts 0 = true ∧ (s.core 0).freeSlots = [] ∧ s.queueRoom 0 = false) ∧
    (let s := about (small (answering none)) 0 0 .none
     let c := s.ctx 0
     c.wait = .answer ∧ c.answer = some s.arg.what ∧ c.heldTail = some Effect.none ∧ c.st = .parked ∧ c.slot ≠ none) ∧
    (let s := thiefState ⟨0, none, 0, 256, none⟩ []
     let th := (s.core 0).thief
     s.mayStealNow 0 = true ∧ th.probing = none ∧ th.until_ = none ∧ (s.victims 0)[th.next % (s.victims 0).length]? = some 1 ∧
      0 < (s.victims 0).length) ∧
    (∀ val ∈ [0, 1], let r := { (small id).taskRec 0 0 0x3000 with size := 2 }
     let s := { thiefState ⟨0, some 1, 0, 256, none⟩ [r] with arg := ⟨0, 1, val, .none⟩ }
     (s.core 0).thief.probing = some s.arg.what ∧ (s.core 1).present = true ∧ (s.core 1).deque.getLast? = some r ∧ r.size ≠ 0 ∧
      0 ∈ s.stealDomain r.forker r.size.toNat ∧ r.twin = false ∧ s.mayStealNow 0 = true ∧ (s.core 1).dequeAt ≤ s.cycle ∧
      (s.cluster (clusterOf 1)).leasedCore ≠ some 1 ∧ (s.cluster (clusterOf 1)).halted = false) ∧
    (let s := { thiefState ⟨0, some 1, 0, 256, none⟩ [] with
       cores := [(0, { Core.initial with thief := ⟨0, some 1, 0, 256, none⟩ }), (1, { Core.initial with dequeAt := 1 })] }
     s.arg.val = 0 ∧ (s.core 0).thief.probing = some s.arg.what ∧ s.cycle < (s.core 1).dequeAt) ∧
    (let s := thiefState ⟨0, some 1, 0, 256, none⟩ []
     (s.core 1).deque = [] ∧ (s.core 0).thief.tried + 1 < (s.victims 0).length) ∧
    (let r := { (small id).taskRec 0 0 0x3000 with size := 0 }
     ((thiefState ⟨0, some 1, 0, 256, none⟩ [r]).core 1).deque.getLast? = some r ∧ r.size = 0) ∧
    (let s := { thiefState ⟨0, some 1, 0, 256, none⟩ [] with cores := [(0, { Core.initial with thief := ⟨0, some 1, 0, 256, none⟩ }),
       (1, { Core.initial with present := false, deque := [(small id).taskRec 0 0 0x3000] })] }
     (s.core 0).thief.probing = some s.arg.what ∧ (s.core 1).present = false) ∧
    (let s := thiefState ⟨0, some 1, 6, 256, none⟩ []
     (s.core 1).deque = [] ∧ (s.victims 0).length ≤ (s.core 0).thief.tried + 1) ∧
    (let s := thiefState ⟨0, none, 0, 256, some 9⟩ []
     (s.core 0).thief.until_ = some 9) ∧
    (let s := small fun c => { ending c with phase := 1 }
     let c := s.ctx 0
     rising 0 s.ctxs = true ∧ c.wait = .drain ∧ c.kill = none ∧ c.st = .parked ∧ c.phase = 1 ∧ c.probes = [] ∧
      s.engineBusy 0 c.gen = false ∧ c.rcause = 0 ∧ c.twin = none ∧ c.slot = some 0 ∧ c.join ≠ 0 ∧
      bits (c.join.setWidth 64) 55 46 = Config.moduleNumber ∧ ∀ x ∈ s.ctxs, (match x.2.wait with | .kills _ => false | _ => true) = true) ∧
    (let c := (small fun c => { ending c with pend := [⟨.s 9, .result 40 0⟩] }).ctx 0
     c.wait = .drain ∧ c.kill = none ∧ c.st = .parked ∧ c.phase = 0 ∧ c.pend ≠ []) ∧
    (let s := { small (fun c => { ending c with phase := 3, kill := some ⟨Cause.killed, 0, 0x1000, 4, 0, 0, 0, 0⟩ }) with parts := part1 }
     let c := s.ctx 0
     c.kill ≠ none ∧ c.st ≠ .swapped ∧ c.phase = 3 ∧ c.probes = [] ∧ s.requestOut 0 (BitVec.ofNat 12 0) = false ∧
      (s.cluster (clusterOf 0)).leasedCore ≠ some 0 ∧ ∀ x ∈ s.slices, x.2.waits = []) := by
  refine ⟨?_, ?_, ?_, ?_, ?_, ?_, ?_, ?_, ?_, ?_, ?_, ?_, ?_, ?_⟩ <;> decide +kernel

/-- A copy command of context 0, as captured: kind, action and NOTIFY, source, destination, 8 bytes. -/
def copyOf (c0 src dst : Word) (prv : Bool) : CpCmd :=
  { (opState 0 0).copyCmd 0 [c0, src, dst, 0, 0x100000008, 0x40, 1, 0] with prv := prv }

/-- Cluster 0 with a command in its queue or in lane 0. -/
def copyState (f : Ctx → Ctx) (x : Cluster) : State := { about (small f) 0 0 .none with parts := part1, clusters := [(0, x)] }

theorem witness_CopyEngineWorks :
    (let c := copyOf 4 0 slab0 true
     let s := { copyState id { Cluster.initial with cpQueue := [c] } with cycle := 8 }
     s.arg.what = 0 ∧ (s.cluster 0).lanes = [] ∧ (s.cluster 0).cpQueue = [c] ∧ (s.cluster 0).cpHalted = false ∧ c.failed = false ∧
      c.queued + 8 ≤ s.cycle) ∧
    (let c := copyOf 4 0 slab0 true
     let s := copyState id { Cluster.initial with lanes := [(0, ⟨some c, 0⟩)] }
     (s.cluster 0).lane 0 = ⟨some c, 0⟩ ∧ (s.cluster 0).cpHalted = false ∧ s.sameCtx c.gid c.gen = true ∧
      c.indexPieces = [] ∧ (s.lookUp (s.engAsks c.user false c.readPieces ++ s.engAsks c.user true c.writePieces)).1 = true ∧
      (okOf (s.cpUnitSrc c)).isSome = true ∧
      okOf (s.cpUnitData c) = some (List.replicate 8 0, 0) ∧ okOf (s.cpUnitDst c) = some ((List.range 8).map (slabPlace 0 ·)) ∧
      s.rowsHeld (slabRows ((okOf (s.cpUnitSrc c)).getD []) ++ slabRows ((List.range 8).map (slabPlace 0 ·))) = false ∧
      (∀ p ∈ (List.range 8).map (slabPlace 0 ·), s.fenced (placeDie p) c.domain c.domGen = false) ∧
      c.rowBytes ≤ c.off + c.unitLen ∧ c.rows ≤ c.row + 1) ∧
    (let c := copyOf 1 0x1000 slab0 true
     let s := { copyState id { Cluster.initial with lanes := [(0, ⟨some c, 0⟩)] } with mem := memWrite [] (hbmPlace 0 0 0 0 0) (bytesOfNat 8 0x1F) }
     (s.cluster 0).lane 0 = ⟨some c, 0⟩ ∧ c.indexPieces = [] ∧
      (s.lookUp (s.engAsks c.user false c.readPieces ++ s.engAsks c.user true c.writePieces)).1 = false) ∧
    (let c := copyOf 1 0x1000 slab0 false
     let s := copyState id { Cluster.initial with lanes := [(0, ⟨some c, 0⟩)], cpQueue := [c] }
     (s.lookUp (s.engAsks c.user false c.readPieces ++ s.engAsks c.user true c.writePieces)).1 = true ∧ (s.cluster 0).lane 0 = ⟨some c, 0⟩ ∧ s.sameCtx c.gid c.gen = true ∧ errOf (s.cpUnitData c) = some (Cause.protection, 0x1000) ∧
      (s.ctx c.gid).twin = none ∧ (s.ctx c.gid).rcause = 0 ∧ (s.cluster 0).cpQueue = [c]) ∧
    (let c := copyOf 4 0 slab0 true
     let s := copyState id { Cluster.initial with lanes := [(0, ⟨some c, 1⟩)] }
     (s.cluster 0).lane 0 = ⟨some c, 1⟩ ∧ c.act = 0 ∧ c.notify = false ∧
      ∀ x ∈ s.ctxs, x.2.wait ≠ .cpq) ∧
    (copyOf 0x40004 0 slab0 true).notify = true ∧
    (let c := copyOf 0x10004 0 slab0 true
     let s := copyState id { Cluster.initial with lanes := [(0, ⟨some c, 1⟩)] }
     c.act = 1 ∧ s.engObjCheck c.user (cw c.words 5) = none ∧ bits (cw c.words 5) 55 46 = Config.moduleNumber) ∧
    (let c := copyOf 0x10004 0 slab0 true
     let r := objReq 0x2B 1 false 0
     let s := { copyState id { Cluster.initial with lanes := [(0, ⟨some c, 2⟩)] } with net := [⟨0, .objReply r 0 0 0⟩] }
     s.msg s.arg.what = some (.objReply r 0 0 0) ∧ s.swappedOut r.ctxid = false ∧ (s.cluster 0).lane r.lane = ⟨some c, 2⟩ ∧
      c.gid = r.ctxid ∧ c.gen = r.gen ∧ s.sameCtx c.gid c.gen = true ∧ c.notify = false) := by
  and_intros <;> decide +kernel

/-- A matrix command of context 0, as captured: M = N = KG = 1, INT8 by INT8 from the slab. -/
def matrixOf (m0 m7 b : Word) (prv : Bool) : MxCmd :=
  { (opState 0 0).matrixCmd 0 [m0 ||| 0x08100100000000, slab0, 0x4000, b, 0x4000, 0, 0, m7] with prv := prv }

/-- A run of a command from its first group. -/
def runOf (c : MxCmd) (waiting : Nat) : MxRun := ⟨c, 0, 0, 0, false, 0, waiting, 8, 0⟩

/-- Core 0 with a running command or a queue. -/
def matrixState (run : Option MxRun) (queue : List MxCmd) : State :=
  { about (small id) 0 0 .none with
    cycle := 8
    parts := part1
    cores := [(0, { Core.initial with mx := { MatrixUnit.initial with run := run, queue := queue } })] }

/-- The pages of a run's group are at hand. -/
def pagesNear (s : State) (r : MxRun) : Bool :=
  (s.lookUp (s.engAsks r.cmd.user false r.readPieces ++ s.engAsks r.cmd.user true r.writePieces)).1

/-- Its row pairs are taken, its frames have passed, and no bank of its own is in a hand-over. -/
def unitReady (s : State) (r : MxRun) : Bool :=
  !s.mxFetching 0 && decide (r.fetchEnd (s.core 0).mx.lastPair ≤ s.cycle) && !s.unitHeld r

/-- A row pair of core 0's unit waits at bank 0. -/
def fetchingState (r : MxRun) : State :=
  let s := matrixState (some r) []
  { s with cores := s.cores.map fun x => (x.1, x.2.modBank 0 fun q => { q with mxQ := [(0, 1)] }) }

theorem witness_MatrixUnitWorks :
    (let c := matrixOf 0x4401 0 slab0 true
     c.multiplies = true ∧ (fetchingState (runOf c 0)).mxFetching 0 = true) ∧
    (let c := matrixOf 0x4401 0 0x1000 true
     let s := { matrixState (some (runOf c 0)) [] with mem := memWrite [] (hbmPlace 0 0 0 0 0) (bytesOfNat 8 0x1F) }
     unitReady s (runOf c 0) = true ∧ pagesNear s (runOf c 0) = false) ∧
    (let c := matrixOf 0x4401 0 slab0 true
     let s := matrixState (some (runOf c 0)) []
     s.mxFetching 0 = false ∧ s.cycle < (runOf c 0).fetchEnd 8) ∧
    (let c := matrixOf 0x4401 0 slab0 true
     let s := { matrixState (some (runOf c 0)) [] with clusters := [(0, { Cluster.initial with leasedCore := some 0 })] }
     s.mxFetching 0 = false ∧ (runOf c 0).fetchEnd 0 ≤ s.cycle ∧ s.unitHeld (runOf c 0) = true) ∧
    (let c := matrixOf 3 0 0 true
     let s := matrixState none [c]
     let mx := (s.core s.arg.who).mx
     mx.halted = false ∧ mx.part = none ∧ mx.run = none ∧ mx.queue = [c] ∧ c.failed = false ∧ c.kind ≠ 5 ∧ c.kind ≠ 6) ∧
    (let c := matrixOf 0x4401 0 slab0 true
     let s := matrixState (some (runOf c 0)) []
     (s.core 0).mx.run = some (runOf c 0) ∧ (s.core 0).mx.halted = false ∧ s.sameCtx c.gid c.gen = true ∧ c.multiplies = true ∧
      unitReady s (runOf c 0) = true ∧ pagesNear s (runOf c 0) = true ∧
      (okOf (s.groupCells 0 c (runOf c 0).region 0)).isSome = true ∧ c.groups ≤ 1) ∧
    (let c := matrixOf 3 0 0 true
     c.kind = 3 ∧ c.n ≤ 64 ∧ unitReady (matrixState (some (runOf c 0)) []) (runOf c 0) = true) ∧
    (let c := matrixOf 0x140005 0 0 true
     let s := matrixState (some (runOf c 0)) []
     c.kind = 5 ∧ unitReady s (runOf c 0) = true ∧ pagesNear s (runOf c 0) = true ∧ s.poison = [] ∧
      ((okOf (s.engRange c.user true (c.pieces 1 0 0 c.rowBytes))).any fun ps => ps.all fun p => !s.fenced (placeDie p) c.domain c.domGen) = true) ∧
    (let c := matrixOf 0x4401 0 0x1000 false
     let s := matrixState (some (runOf c 0)) []
     c.multiplies = true ∧ unitReady s (runOf c 0) = true ∧ pagesNear s (runOf c 0) = true ∧ errOf (s.groupCells 0 c (runOf c 0).region 0) = some (Cause.protection, some 0x1000) ∧
      (s.ctx c.gid).twin = none ∧ (s.ctx c.gid).rcause = 0 ∧ (s.core 0).mx.queue = []) ∧
    (let c := matrixOf 3 0 0 true
     let s := matrixState (some (runOf c 1)) []
     (s.core 0).mx.run = some (runOf c 1) ∧ s.trails c.gid = false ∧ bits (cw c.words 0) 26 25 = 0 ∧ ∀ x ∈ s.ctxs, x.2.wait ≠ .mxq) ∧
    bits (cw (matrixOf 0x2000003 0 0 true).words 0) 26 25 = 1 ∧
    (let c := matrixOf 0x4000003 0x40 0 true
     let s := matrixState (some (runOf c 1)) []
     bits (cw c.words 0) 26 26 = 1 ∧ s.engObjCheck c.user (word (bits (cw c.words 7) 56 0)) = none ∧
      bits (cw c.words 7) 55 46 = Config.moduleNumber) ∧
    (let c := matrixOf 0x4000003 0x40 0 true
     let q := objReq 0x2B 1 false 0
     let s := { matrixState (some (runOf c 2)) [] with net := [⟨0, .objReply q 0 0 0⟩] }
     s.msg s.arg.what = some (.objReply q 0 0 0) ∧ s.swappedOut q.ctxid = false ∧ (s.core q.lane).mx.run = some (runOf c 2) ∧
      c.gid = q.ctxid ∧ c.gen = q.gen ∧ s.sameCtx c.gid c.gen = true ∧ bits (cw c.words 0) 25 25 = 0) ∧
    (let c := { matrixOf 6 0 0 true with words := [0x08100100000006, 0, 0, 0, 0, 0, 0x10000, 0] }
     let j : GmmaJob := ⟨0, c, 1, none⟩
     let s := { matrixState (some (runOf c 5)) [] with clusters := [(0, { Cluster.initial with gmmaQ := [j] })] }
     (s.cluster 0).gmmaRun = none ∧ (s.cluster 0).halted = false ∧ (s.cluster 0).gmmaQ = [j] ∧ (s.core j.core).mx.run = some (runOf c 5) ∧
      j.cmd.memberCount = 1 ∧ ∀ m, m < 1 → (s.core (memberCore 0 m)).present = true) ∧
    (let c := matrixOf 6 0 0 true
     let j : GmmaJob := ⟨0, c, 1, none⟩
     let s := { matrixState (some (runOf c 5)) [] with clusters := [(0, { Cluster.initial with gmmaRun := some j })] }
     (s.cluster 0).gmmaRun = some j ∧ j.left ≤ 1 ∧ j.fault = none ∧ (s.core j.core).mx.run = some (runOf c 5) ∧
      s.sameCtx j.cmd.gid j.cmd.gen = true ∧ ({ s with clusters := [(0, { Cluster.initial with gmmaRun := some { j with left := 2 } })] }.cluster 0).gmmaRun =
        some { j with left := 2 }) ∧
    (let a := runOf (matrixOf 0x140005 0 0 true) 4
     let s := { matrixState (some a) [] with
       cores := [(0, { Core.initial with mx := { MatrixUnit.initial with run := some a } }),
         (1, { Core.initial with mx := { MatrixUnit.initial with run := some { a with digest := 1 } } })] }
     (s.core 0).mx.run = some a ∧ (s.core 1).mx.run = some { a with digest := 1 } ∧ a.waiting = 4 ∧ a.cmd.kind = 5 ∧ a.digest ≠ 1) := by
  and_intros <;> decide +kernel

/-- A state with an event's subject and value. -/
def valued (s : State) (who what val : Nat) (ext : EvExt) : State := { s with arg := ⟨who, what, val, ext⟩ }

/-- Die 0's record, the DONE bits cleared. -/
def busyDie : Die := { Die.initial with tlbDone := false, rdcDone := false, domDone := false, snapDone := false, timeSet := true }

/-- Partition 1 as R130 allows it. -/
def goodPart : Partition := { Partition.initial with clusters := 3, plimit := 4, domCount := 4 }

theorem witness_RegisterWritesAct :
    (let s := small id
     let d := s.die 0
     d.tlbDone = true ∧ d.rdcDone = true ∧ d.domDone = true ∧ d.snapDone = true ∧ d.timeSet = false ∧ s.arg.who < 2 ∧ s.arg.what = 0) ∧
    (let s := { small id with dies := [(0, busyDie)] }
     let d := s.die 0
     d.tlbDone = false ∧ (∀ y ∈ s.slices, y.1 / Config.slices = 0 → d.tlbPage.toNat ∉ y.2.walks) ∧ d.rdcDone = false ∧
      d.domDone = false ∧ d.snapDone = false ∧ d.timeSet = true) ∧
    (let s := { valued (small id) 2 (2 ^ 8 * 1 + 24) 0 .none with parts := [(1, goodPart)] }
     s.arg.who = 2 ∧ s.arg.what = 2 ^ 8 * 1 + 24 ∧ (s.part 1).enable = false ∧
      s.partitionOk (s.arg.what / 2 ^ 8) { s.part 1 with sagQuota := (word s.arg.val).setWidth 32 } = true ∧ (s.part 1).inShadow = false ∧
      ∀ c ∈ (s.part 1).clusterList, (s.die (c / 64)).bootFail = false) ∧
    (let s := { valued (small id) 2 (2 ^ 8 * 1 + 24) 0 .none with parts := part1 }
     (s.part 1).enable = true) ∧
    (let s := { valued (small id) 2 (2 ^ 8 * 1 + 24) 0 .none with parts := [(1, { goodPart with clusters := 1 })] }
     (s.part 1).enable = false ∧ s.partitionOk (s.arg.what / 2 ^ 8) { s.part 1 with sagQuota := (word s.arg.val).setWidth 32 } = false) ∧
    (let s := { valued (small id) 1 0 0 .none with parts := [(1, { goodPart with enable := true, disabling := true })] }
     (s.part 1).disabling = true ∧ s.partitionIdle 1 = false ∧ { s with ctxs := [] }.partitionIdle 1 = true) ∧
    (let s := valued (small fun c => { c with st := .parked, wait := .halted false }) 0 (2 ^ 20) 0 .none
     (s.cluster 0).served ((s.arg.what - 2 ^ 20) / 2 ^ 16 % 9) = some 0 ∧ (s.ctx (gidOf 0 0)).wait = .halted false ∧
      (s.ctx (gidOf 0 0)).st = .parked ∧ (s.ctx (gidOf 0 0)).slot ≠ none) := by
  and_intros <;> decide +kernel

/-- Partition 1 is OUT of an exchange. -/
def swapState (done : Bool) (drained halting : List Nat) : State :=
  { about (small fun c => { c with st := .parked, wait := .halted true }) 1 0 .none with
    parts := [(1, { goodPart with enable := true })]
    pf := { PfRegs.initial with out := 1, done := done, drained := drained, halting := halting } }

/-- An aperture of function 1 onto die 0's first page, and a host range that grants it. -/
def barState (ext : EvExt) (val : Nat) : State :=
  { valued (small id) 1 0 val ext with
    funcs := [(1, ⟨true, 0, 0⟩)]
    parts := [(1, { goodPart with enable := true, hrange := Vector.replicate 16 0x1F })]
    slices := [(0, { Slice.initial with tlb := [(0, 0x1F)] })] }

theorem witness_HostAndServiceStepsAct :
    (let s := swapState true [] []
     s.arg.who ≠ swapWaits ∧ s.pf.out.toNat ≠ 0 ∧ (s.part s.pf.out.toNat).enable = true ∧
      s.handing (s.part s.pf.out.toNat).clusterList = false ∧ s.pf.done = true ∧ s.goRefused s.pf.out.toNat s.pf.inn.toNat = true) ∧
    (let s := { swapState true [1] [] with clusters := [(0, { Cluster.initial with leasedCore := some 0 })] }
     s.arg.who ≠ swapWaits ∧ s.handing (s.part s.pf.out.toNat).clusterList = true ∧
      s.goRefused s.pf.out.toNat s.pf.inn.toNat = false) ∧
    (let s := { swapState true [] [1] with ctxs := [] }
     1 ∈ s.pf.halting ∧ ∀ c ∈ (s.part 1).clusterList, s.clusterDrained c = true) ∧
    (let s := swapState true [1] []
     s.arg.who ≠ swapWaits ∧ s.pf.done = true ∧ s.goRefused s.pf.out.toNat s.pf.inn.toNat = false ∧ s.handing (s.part s.pf.out.toNat).clusterList = false) ∧
    (let s := swapState false [1] []
     s.pf.done = false ∧ s.arg.who ≠ 0 ∧ s.arg.what = 0 ∧ rising 0 s.ctxs = true ∧ (s.ctx 0).st = .parked ∧
      clusterOf (s.at 0) ∈ (s.part 1).clusterList ∧ s.swappedOut 0 = false ∧ inSlab 0 (slabPlace 0 0, 0) = true ∧
      ∀ c ∈ (s.part 1).clusterList, inSlab c (0, 0) = false) ∧
    (let s := barState (.bytes [1, 2] false) 2
     (s.func 1).aperture s.arg.what = some 0 ∧ (s.hostPlaces 1 0 2 true).isSome = true ∧ (s.hostPlaces 1 0 2 false).isSome = true ∧
      s.poison = [] ∧ (s.lookUp (byteAddrs 0 2)).1 = true ∧ s.hostWrites 1 = false ∧
      { s with tags := [(framePlace 0 0 0 / 64, 1)] }.hostPlaces 1 0 2 true = none) ∧
    (let s := barState (.bytes [1, 2] false) 0
     s.hostWaits 1 s.arg.val = false ∧ { s with agenda := [⟨9, .bar4Write, ⟨1, 0, 1, .bytes [] false⟩⟩] }.hostWaits 1 s.arg.val = true) ∧
    (let s := valued (small id) 0 0x100 8 .bar0
     s.arg.ext = .bar0 ∧ s.arg.what + s.arg.val ≤ 0x3FF0000) ∧
    (valued (small id) 0 8 8 .none).arg.ext ≠ .bar0 ∧
    ((small id).func 1).aperture 0 = none ∧
    (List.replicate 32 (7 : Byte)).length = 32 ∧
    ((small id).assayRuns = true ∧
      { small id with dies := [(0, { Die.initial with bootFail := true }), (1, { Die.initial with bootFail := true })] }.assayRuns = false) ∧
    (let s := small id
     (s.die 0).booted = false ∧ (s.die 0).bootFail = false) ∧
    (let s := valued (small id) 0 0 1 .none
     s.arg.val = 1 ∧ s.assay.clock < 12) ∧
    (let s := { valued (small id) 0 0 2 .none with assay := { Assay.initial with clock := 3 } }
     s.pf.clkcap.toNat < s.assay.clock ∧ ¬ (small id).pf.clkcap.toNat < (small id).assay.clock) ∧
    (let s := { small id with pf := { PfRegs.initial with clkcap := 3 } }
     s.arg.val = 0 ∧ s.assay.clock < s.pf.clkcap.toNat) := by
  and_intros <;> decide +kernel

/-- Whatever image the flash of die 0 holds, one of the two ends of secure boot is met, and fuses above its version give the second. -/
theorem witness_secureBoot :
    (Config.bootVerifies 0 = false ∨ Config.bootVersion 0 < (0 : Nat) ∨ (Config.bootVerifies 0 = true ∧ 0 ≤ Config.bootVersion 0)) ∧
    Config.bootVersion 0 < { Assay.initial with fuses := Config.bootVersion 0 + 1 }.fuses := by
  refine ⟨?_, Nat.lt_succ_self _⟩
  cases Config.bootVerifies 0
  · exact .inl rfl
  · exact .inr (.inr ⟨rfl, Nat.zero_le _⟩)

/-- A packet of partition 1: one context at 0x2000 of domain 0, its working set at address 0. -/
def packetOf (st : PacketState) (w8 w10 w12 : Word) : Packet :=
  ⟨[0x2000, 1, 2, 3, 4, 0x100000000, 0, 0, w8, 7, w10, 1, w12, 0, 0, 4], 1, 0, 0, 9, st, 0, 0, 0, false, none⟩

/-- Die 0 with one packet, in a memory whose page 0 holds a working set: one range, the whole page with every right. -/
def packetState (p : Packet) : State :=
  { about (small id) 0 0 .none with
    parts := [(1, { goodPart with enable := true })]
    mem := [(hbmPlace 0 0 0 0 0, (0x9F, 8)), (hbmPlace 0 0 0 0 2, (1, 1)), (framePlace 0 0 1, (1, 8)), (framePlace 0 8 1, (2 ^ 89 + 15 * 2 ^ 104, 16))].foldl
      (fun m x => memWrite m x.1 (bytesOfNat x.2.2 x.2.1)) []
    dies := [(0, { Die.initial with packets := [(0, p)] })] }

/-- The page of the working-set list is at hand. -/
def atHand (s : State) : State := { s with slices := [(0, { Slice.initial with tlb := [(0, 0x1009F)] })] }

theorem witness_DispatcherRunsPackets :
    (let s := { homeState (objReq 0 0 false 0) 5 [0x40, 0x400000004, 0, 1] [] with
       parts := [(1, { goodPart with enable := true, dq := Vector.replicate 4 0 |>.set 1 0x1000 })]
       slices := [(0, { Slice.initial with tlb := [(0, 0x1F)] }), (16, { Slice.initial with tlb := [(0, 0x1F)] })]
       tags := [(framePlace 0 0x1000 0 / 64, 5)]
       mem := memWrite (memWrite [] (framePlace 0 0x1000 0) (bytesOfNat 8 0x40)) (framePlace 0 0x1018 0) [1] }
     ((s.die 0).packets.all fun p => p.2.words != []) = true ∧ s.partitionToServe 0 = some (1, 1, 0x1000) ∧ s.freePacket 0 = some 0 ∧
      bits (0x1000 : Word) 55 46 = Config.moduleNumber) ∧
    (let p := packetOf .verify 0 0 0
     let s := packetState p
     s.packet 0 0 = some p ∧ p.st = .verify ∧ p.words ≠ [] ∧ (s.listLookUp p).1 = false) ∧
    (let p := packetOf .verify 0 0 0
     let s := atHand (packetState p)
     s.packet 0 0 = some p ∧ (s.listLookUp p).1 = true ∧ (s.listLookUp p).2.verifyCode p = 0 ∧ p.depctr = 0 ∧ p.w 12 = 0) ∧
    (let p := packetOf .verify 0 0 0
     let s := { atHand (packetState p) with mem := [] }
     (s.listLookUp p).1 = true ∧ (s.listLookUp p).2.verifyCode p ≠ 0) ∧
    (let p := { packetOf .verify 0 0 0 with words := [] }
     let s := about (packetState p) 0 1 .none
     s.arg.what = 0 + 1 ∧ s.packet 0 0 = some p ∧ p.st = .verify ∧ p.words = [] ∧ rising 0 (s.die 0).packets = true) ∧
    (let p := packetOf .verify 0x40 0 0
     let s := { atHand (packetState p) with tags := [(framePlace 0 0x40 1 / 64, 1)] }
     (s.listLookUp p).1 = true ∧ (s.listLookUp p).2.verifyCode p = 0 ∧ p.depctr ≠ 0 ∧ bits p.depctr 55 46 = Config.moduleNumber) ∧
    (let p := packetOf .depend 0x40 0 0
     let s := packetState p
     s.packet 0 s.arg.what = some p ∧ p.st = .depend ∧ s.arg.val = 0 ∧ p.w 12 = 0 ∧ bits p.depctr 55 46 = Config.moduleNumber) ∧
    (let p := packetOf .timed 0 0 5
     let s := packetState p
     s.packet 0 s.arg.what = some p ∧ p.st = .timed ∧ p.w 12 ≠ 0 ∧ (s.time 0 - p.w 12).toInt < 0 ∧ (packetOf .timed 0 0 0).w 12 = 0) ∧
    (let p := packetOf .placing 0 0 0
     let s := packetState p
     (s.die 0).lastPlace ≤ s.cycle ∧ ((s.die 0).packets.filter fun q => decide (q.2.st = .placing)) = [(0, p)] ∧ s.packet 0 0 = some p ∧
      p.twin = false ∧ s.chooseCore p = some 0 ∧ s.mayCreate 0 false = true ∧ s.freeNum 0 = some 1 ∧ (s.core 0).freeSlots ≠ [] ∧ p.placed + 1 = p.count) ∧
    (let p := packetOf .running 0 0x40 0
     let s := packetState p
     s.packet 0 s.arg.what = some p ∧ p.refused = none ∧ p.live = 0 ∧ p.records = 0 ∧ s.arg.val = 0 ∧ p.killed = false ∧ p.donectr ≠ 0 ∧
      bits p.donectr 55 46 = Config.moduleNumber ∧ (packetOf .running 0 0 0).donectr = 0) ∧
    (let p := packetOf .complete 0 0 0
     let s := valued (packetState p) 0 0 1 .none
     s.packet 0 s.arg.what = some p ∧ p.st = .complete ∧ s.arg.val = 1) ∧
    (let p := packetOf .timed 0 0 5
     let s := valued (packetState p) 0 0 1 .none
     s.packet 0 0 = some p ∧ (s.die 0).packets = [(0, p)] ∧ (s.die 1).packets = [] ∧ p.words ≠ [] ∧ p.vf = s.arg.val % 2 ^ 7 ∧
      (packetOf .depend 0 0 0).st = .depend) := by
  and_intros <;> decide +kernel

/-- The two halves of a pair, contexts 0 and 4096 (core 1). -/
def twinInfo (leader : Bool) (partner : Nat) (held : Option Bundle) (bad : List Nat) : TwinInfo :=
  ⟨leader, partner, [], 0, 0, 3, 0, 0, Ctx.initial.snapshot, false, bad, held.isSome, false, held, [], []⟩

/-- A pair whose halves hold bundles. -/
def pairState (a b : Option Bundle) (w : Wait) (bad : List Nat) : State :=
  { about (small id) 0 0 .none with
    ctxs := [(0, { Ctx.initial with st := .parked, slot := some 0, wait := w, twin := some (twinInfo true 4096 a bad) }),
      (4096, { Ctx.initial with st := .parked, slot := some 0, wait := w, twin := some (twinInfo false 0 b []) })] }

/-- The hypotheses about a pair that the statement's clauses share. -/
def isPair (s : State) : Prop :=
  ∃ l t, (s.ctx 0).twin = some l ∧ (s.ctx l.partner).twin = some t ∧ l.partner ≠ 0 ∧ t.partner = 0 ∧ l.leader = true ∧
    t.leader = false ∧ (s.ctx 0).kill = none

theorem pairs {a b : Option Bundle} {w : Wait} {bad : List Nat} : isPair (pairState a b w bad) :=
  ⟨_, _, rfl, rfl, (by show (4096 : Nat) ≠ 0; decide), rfl, rfl, rfl, rfl⟩

/-- A store of the leader that the comparator holds. -/
def heldPoint : HeldPoint := ⟨3, ⟨false, .nopc, none⟩, [], some 0, some (Ctx.initial.snapshot, 4)⟩

/-- The leader runs with one access held, and its trailer holds the same bundle. -/
def heldState : State :=
  { valued (small id) 0 0 4 .none with
    accs := [inFlight]
    ctxs := [(0, { Ctx.initial with st := .running, slot := some 0, twin := some { twinInfo true 4096 none [] with points := [heldPoint] } }),
      (4096, { Ctx.initial with st := .parked, slot := some 0, wait := .comparator, twin := some (twinInfo false 0 (some heldPoint.bun) []) })] }

theorem held_isPair : isPair heldState := ⟨_, _, rfl, rfl, (by show (4096 : Nat) ≠ 0; decide), rfl, rfl, rfl, rfl⟩

/-- A replay entry that wrote s9. -/
def replay9 : ReplayEntry := ⟨0x1000, 0, ⟨false, .addi 9 10 ⟨5, none⟩, none⟩, [setS 10 0], [.s 9], [setS 9 5]⟩

/-- The leader waits for the comparator with an action, and its trailer holds the same bundle, or another. -/
def actionState (x : Held) (bun : Bundle) (bad : List Nat) : State :=
  { valued (small id) 0 0 4 .none with
    ctxs := [(0, { Ctx.initial with st := .parked, slot := some 0, wait := .comparator, held := some x, twin := some { twinInfo true 4096 none bad with points := [{ heldPoint with acc := none }] } }),
      (4096, { Ctx.initial with st := .parked, slot := some 0, wait := .comparator, twin := some (twinInfo false 0 (some bun) []) })] }

theorem action_isPair {x : Held} {bun : Bundle} {bad : List Nat} : isPair (actionState x bun bad) :=
  ⟨_, _, rfl, rfl, (by show (4096 : Nat) ≠ 0; decide), rfl, rfl, rfl, rfl⟩

theorem witness_ErrorsAreRepaired :
    (let s := heldState
     isPair s ∧ s.arg.what = 0 ∧
      ((s.ctx 0).twin.map fun l => l.points.find? fun x => x.bundle + 1 == s.arg.val) = some (some heldPoint) ∧
      ((s.ctx 4096).twin.map fun t => decide (some heldPoint.bun = t.heldBun ∧ heldPoint.sig = t.sig ∧ t.holding = true)) = some true ∧
      (s.ctx 4096).st = .parked ∧ (s.ctx 4096).slot ≠ none ∧ heldPoint.image ≠ none ∧ heldPoint.acc = some 0 ∧ s.acc 0 = some inFlight) ∧
    (∀ x ∈ [Held.object (objReq 0x2C 3 false 0), .send 4 0 0 0 true, .halt], let s := actionState x heldPoint.bun []
     ((s.ctx 0).twin.map fun l => l.points.find? fun x => x.bundle + 1 == s.arg.val) = some (some { heldPoint with acc := none }) ∧
      ((s.ctx 4096).twin.map fun t => decide (some heldPoint.bun = t.heldBun ∧ heldPoint.sig = t.sig)) = some true ∧
      (s.ctx 0).wait = .comparator ∧ (s.ctx 0).relMask = 0 ∧ (s.ctx 0).held = some x) ∧
    isPair (actionState .halt heldPoint.bun []) ∧
    (∀ bad ∈ [[], [3]], let s := actionState .halt ⟨false, .halt, none⟩ bad
     s.arg.what = 0 ∧ ((s.ctx 4096).twin.map fun t => decide (some heldPoint.bun = t.heldBun)) = some false ∧
      ((s.ctx 0).twin.map fun l => l.mismatches.contains heldPoint.bundle) = some (bad == [3]) ∧ (s.ctx 4096).kill = none ∧
      (s.ctx 0).st = .parked ∧ (s.ctx 4096).st = .parked) ∧
    (let s := { pairState none none .comparator [] with arg := ⟨0, 1, 0, .none⟩ }
     s.arg.what ≠ 0 ∧ ((s.ctx 0).twin.map fun l => l.mismatches) = some []) ∧
    (let s := pairState none none .restore []
     isPair s ∧ (s.ctx 0).wait = .restore ∧ (s.ctx 4096).wait = .restore) ∧
    (let s := pairState none none .issue []
     isPair s ∧ (s.ctx 0).wait = .issue ∧ (s.ctx 4096).pend = [] ∧ (s.ctx 0).settled.snapshot.shared = (s.ctx 4096).settled.snapshot.shared ∧
      ((s.ctx 0).twin.map fun l => (l.points, l.taken == l.queue.length, l.issued)) = some ([], true, 3) ∧
      ((s.ctx 4096).twin.map fun t => t.issued) = some 3 ∧
      { s with ctxs := [(0, withS [(9, 1)] (s.ctx 0)), (4096, s.ctx 4096)] }.ctx 0 = withS [(9, 1)] (s.ctx 0) ∧
      (withS [(9, 1)] (s.ctx 0)).settled.snapshot.shared ≠ (s.ctx 4096).settled.snapshot.shared) ∧
    (let s := about (small fun c => { c with replay := [replay9] }) 0 9 .none
     (s.ctx 0).st = .running ∧ (s.ctx 0).kill = none ∧
      ((s.ctx 0).replay.any fun e => e.dests.any fun r => r.code == s.arg.what) = true ∧
      ((s.ctx 0).replay.any fun e => e.dests.any fun r => r.code == 10) = false ∧ (s.ctx 0).twin = none) ∧
    (let c := (small fun c => { c with twin := some (twinInfo true 4096 none []) }).ctx 0
     c.st = .running ∧ c.kill = none ∧ c.replay = [] ∧ c.twin = some (twinInfo true 4096 none []) ∧
      (twinInfo true 4096 none []).leader = true) ∧
    (let s := about (small fun c => { c with st := .parked, wait := .restore, replay := [replay9] }) 0 9 .none
     (s.ctx 0).st = .parked ∧ (s.ctx 0).wait = .restore ∧ (s.ctx 0).slot ≠ none ∧
      ((s.ctx 0).replay.find? fun e => e.dests.any fun r => r.code == s.arg.what) = some replay9) ∧
    (∀ n ∈ [7, 8], let s := { valued (small id) 0 4 0 (.array .flit false) with dies := [(0, { Die.initial with hops := [(4, n), (5, 8)] })] }
     s.arg.ext = .array .flit false ∧ (mapGet (s.die 0).hops s.arg.what).getD 0 = n ∧ mapGet (s.die 0).hops 5 = some 8 ∧ s.arg.val ≠ 1) ∧
    (∀ val ∈ [0, 1], let s := { valued (small id) 0 4 val (.array .flit false) with dies := [(0, { Die.initial with hops := [(4, 7), (5, 7)] })] }
     mapGet (s.die 0).hops 5 ≠ some 8) ∧
    (let s := { valued (small id) 0 4 1 (.array .flit false) with dies := [(0, { Die.initial with hops := [(4, 7), (5, 8)] })] }
     (mapGet (s.die 0).hops 4).getD 0 ≠ 8 ∧ s.arg.val = 1) ∧
    ((valued (small id) 0 0 0 (.array .shadow true)).arg.ext = .array .shadow true) ∧
    (valued (small id) 0 0 0 (.array .hbm false)).arg.ext = .array .hbm false ∧
    (let a := { served .bankCmd (.bank 0 0 0) .accepted with bcmd := some bankCmd }
     let s := { pairState none none .issue [] with
       accs := [a], arg := ⟨0, 0, 0, .array .bankUnit false⟩, cores := [(0, { Core.initial with banks := [(0, ⟨[], [bankCmd], 0, 0, [], 0, none, 0⟩)] })] }
     ((s.core s.arg.who).bank s.arg.what).cmdQ = [bankCmd] ∧ s.acc bankCmd.acc = some a ∧ (s.ctx a.gid).twin ≠ none ∧
      (s.ctx a.gid).rcause = 0) ∧
    (let s := valued (small id) 0 0 0 (.array .hbm true)
     s.arg.ext = .array .hbm true ∧ s.arg.who < 2 * Config.slices) ∧
    (let s := small id
     s.pf.nouv = false ∧ (s.die s.arg.who).hourErrs < 4 ∧ (s.die s.arg.who).bootFail = false ∧ (s.die s.arg.who).rail < 12 ∧
      (valued s 0 0 1 .none).arg.val % 2 = 1) ∧
    (let s := { small id with dies := [(0, { Die.initial with rail := 12 })] }
     s.pf.nouv = false ∧ 12 ≤ (s.die s.arg.who).rail ∧ (s.die s.arg.who).hourErrs < 4 ∧ (s.die s.arg.who).bootFail = false) ∧
    (let s := { small id with dies := [(0, { Die.initial with hourErrs := 4 })] }
     4 ≤ (s.die s.arg.who).hourErrs) := by
  and_intros
  all_goals first | exact pairs | exact held_isPair | exact action_isPair | decide +kernel

/-- A flit of class 0 that is a packet of one chunk. -/
def flit (seq : Nat) : Flit := ⟨none, 0, true, true, 0, 0, 0, seq, true, []⟩

/-- R355: a flit with ACK 0x123, class 2, SOP, 3 returned slots of class 1 and SEQ 5, its CRC-48 computed bit by bit from the rule, outside the model. -/
theorem test_flit_bytes :
    flitBytes ⟨some 0x123, 2, true, false, 6, 3, 1, 5, true, [0xAB]⟩ =
      [0x23, 0x51, 0x19, 0x3, 0x1, 0x0, 0x0, 0x0, 0xab] ++ List.replicate 111 0 ++ [5, 0, 0xB7, 0x20, 0x3B, 0x9D, 0x82, 0x0A] := by decide +kernel

/-- Port 0. -/
def portState (p : Port) (val what : Nat) (ext : EvExt) : State := { valued (small id) 0 what val ext with ports := [(0, p)] }

theorem witness_LinksDeliverInOrder :
    (let s := portState { Port.initial with expSeq := 5 } 0 0 (.bytes (flitBytes (flit 5)) false)
     let f := readFlit (flitBytes (flit 5))
     let g := readFlit (flitBytes (flit 4))
     s.arg.ext = .bytes (flitBytes (flit 5)) false ∧ (s.port 0).up = true ∧ f.cls ≠ 4 ∧ f.crcOk = true ∧ f.seq = (s.port 0).expSeq ∧
      f.eop = true ∧ (s.port 0).pend = [] ∧ (s.port 0).sending = [] ∧ g.cls ≠ 4 ∧ g.crcOk = true ∧ g.seq < (s.port 0).expSeq ∧ (s.port 0).expSeq - g.seq ≤ 256 ∧
      (readFlit ((flitBytes (flit 9)).set 8 1)).cls ≠ 4 ∧ (readFlit ((flitBytes (flit 9)).set 8 1)).crcOk = false) ∧
    ((portState { Port.initial with up := false } 0 0 .none).port 0).up = false ∧
    (let s := portState Port.initial 2 0 (.bytes [1, 2] false)
     let q := s.port s.arg.what
     q.inService = true ∧ q.up = true ∧ q.pend = [] ∧ q.sending = [] ∧ q.retry.length < 256 ∧ q.slots s.arg.val ≠ 0) ∧
    (let q := (portState { Port.initial with inService := false } 2 0 (.bytes [1, 2] false)).port 0
     q.inService = false) ∧
    (let q := (portState { Port.initial with retry := List.replicate 256 (7, flit 7) } 2 0 (.bytes [1, 2] false)).port 0
     q.inService = true ∧ q.up = true ∧ 256 ≤ q.retry.length) ∧
    (let s := portState { Port.initial with retry := [(7, flit 7)] } 7 0 .none
     (s.port 0).up = true ∧ (s.port 0).retry = [(7, flit 7)] ∧ s.arg.val ≤ 7 ∧ 7 < s.arg.val + 256) ∧
    (let p := (portState { Port.initial with owed := [(1, 2)], expSeq := 1 } 0 0 .none).port 0
     p.ackDue = false ∧ p.owed ≠ [] ∧ p.up = true ∧ 0 < p.expSeq ∧ p.expSeq < 2 ^ 12) ∧
    (let p := (portState { Port.initial with nak := true } 0 0 .none).port 0
     p.nak = true ∧ p.up = true) ∧
    ((portState Port.initial 0 0 .none).port 0).nak = false ∧
    (let p := (portState { Port.initial with ackDue := true, expSeq := 2 ^ 12 - 1 } 0 0 .none).port 0
     p.ackDue = true ∧ p.up = true ∧ 0 < p.expSeq ∧ p.expSeq < 2 ^ 12) ∧
    (portState Port.initial 0 7 .none).arg.what < 8 ∧
    (let p := (portState { Port.initial with up := false, good := 0xF0 } 0 0 .none).port 0
     p.up = false ∧ ∃ g, g < 8 / 4 ∧ ∀ i, i < 4 → p.good.getLsbD (g * 4 + i) = true) ∧
    (let s := portState Port.initial 0 0 .none
     (s.port 0).up = true ∧ (s.port 0).inService = true ∧ s.arg.ext = .none) ∧
    (portState Port.initial 0 0 (.bytes [] true)).arg.ext = .bytes [] true := by
  and_intros
  all_goals first | exact ⟨1, by decide, by decide⟩ | decide +kernel

/-- A lease of core 0, served by position 0 of cluster 0. -/
def lease (stage : Nat) : Lease := ⟨0, .core, 0, 0, 0, 0, 0, 0, stage, 0, 0⟩

/-- A module with leases, and an event about a resource. -/
def leaseState (ls : List Lease) (x : Cluster) (who what : Nat) (ext : EvExt) : State :=
  { about (small id) who what ext with ctxs := [], assay := { Assay.initial with leases := ls }, clusters := [(0, x)] }

theorem witness_LeasesRun :
    (let s := { leaseState [] Cluster.initial 3000 0 .none with ports := [(0, { Port.initial with retry := [(7, flit 7)] })] }
     s.arg.what = 0 ∧ s.assay.due = [] ∧ s.assay.leases = [] ∧ s.assay.gone = [] ∧ 3000 ≤ s.arg.who ∧
      (s.die (assayOfKey s.arg.who)).bootFail = false ∧ (s.port (s.arg.who - 3000)).retry ≠ []) ∧
    (let s := { leaseState [] Cluster.initial 0 0 .none with dies := [(0, { Die.initial with bootFail := true }), (1, { Die.initial with bootFail := true })] }
     s.arg.what = 0 ∧ s.assay.due = [] ∧ s.assay.leases = [] ∧ s.assay.gone = [] ∧ (s.die (assayOfKey s.arg.who)).bootFail = true ∧
      (s.die 0).bootFail = true ∧ (s.die 1).bootFail = true) ∧
    (let s := leaseState [] Cluster.initial 0 0 .none
     s.arg.what = 0 ∧ s.assay.due = [] ∧ s.assay.leases = [] ∧ s.assay.gone = [] ∧ (s.die (assayOfKey 0)).bootFail = false ∧
      (s.cluster 0).halted = false ∧ s.exchanging 0 = false ∧ (s.cluster 0).sparePresent = true ∧ 0 ≠ (s.cluster 0).sparePos ∧
      (s.cluster 0).served 0 = some 0) ∧
    (let s := leaseState [lease 0] { Cluster.initial with leasedCore := some 0 } 0 1 .none
     s.assay.leases = [lease 0] ∧ (lease 0).key = s.arg.who ∧ s.coreDrained 0 = true ∧ s.arg.what = 1 ∧ (s.cluster 0).positions.length = 8) ∧
    (let s := { leaseState [lease 1] Cluster.initial 0 0 .none with dies := [(0, { Die.initial with timeSet := true })] }
     (s.die (dieOfKey 0)).timeSet = true ∧ 0 ≤ (s.time (dieOfKey 0) - (lease 1).grace).toInt ∧ (s.cluster 0).halted = false ∧
      (s.time (dieOfKey 0) - 5).toInt < 0) ∧
    (let s := leaseState [lease 2] Cluster.initial 0 1 .none
     (lease 2).cls = .core ∧ s.coreDrained 0 = true ∧ s.arg.what = 1 ∧ (lease 2).ident = 0 ∧ s.ctxsOf 0 = [] ∧ (s.core 0).mx.run = none ∧
      (s.core 0).mx.part = none ∧ (s.core 0).mx.queue = []) ∧
    (let s := leaseState [lease 3] Cluster.initial 0 0 (.test .core .passed)
     s.arg.what = 0 ∧ (lease 3).path ≠ 1 ∧ s.arg.ext = .test .core .passed ∧ (lease 3).score < 16384) ∧
    (leaseState [lease 3] Cluster.initial 0 0 (.test .core (.failed 1 0x40 false))).arg.ext = .test .core (.failed 1 0x40 false) ∧
    (let s := { about (small id) 0 0 .none with slices := [(0, { Slice.initial with leased := true, moveNext := 0 })] }
     (s.slice s.arg.who).leased = true ∧ (s.slice s.arg.who).moveNext + 1 < channelLines) ∧
    (let s := { about (small id) 0 0 .none with slices := [(0, { Slice.initial with leased := true, moveNext := channelLines - 1 })] }
     (s.slice s.arg.who).leased = true ∧ (s.slice s.arg.who).moveNext < channelLines) ∧
    (let l := { lease 2 with key := 3000, cls := .port }
     let s := { leaseState [l] Cluster.initial 0 0 .none with ports := [(0, { Port.initial with draining := true })] }
     (s.port 0).draining = true ∧ (s.port 0).retry = [] ∧ (s.port 0).pend = [] ∧ (s.port 0).sending = [] ∧ s.assay.leases = [l] ∧ l.key = 3000 + s.arg.who) := by
  and_intros <;> decide +kernel

/-! Decoding, steps, invariants. -/

theorem witness_EncodedBundlesDecode :
    encodeBundle ⟨true, .jmp 5, some (.addi 9 10 ⟨1, none⟩)⟩ = some [0x21000005, 0x94295001] ∧ (Instr.jmp 5).wf = true ∧
      (Instr.addi 9 10 ⟨1, none⟩).wf = true ∧ destConflict (.jmp 5) (.addi 9 10 ⟨1, none⟩) = false ∧ takeExt [0x40000000] = [] ∧
      encodeBundle ⟨true, .addi 9 10 ⟨1, some 7⟩, none⟩ = some [0x74295001, 0xC0000007] ∧ (Instr.addi 9 10 ⟨1, some 7⟩).wf = true := by
  decide

theorem witness_DecodedWordsAreTheEncoding :
    decodeBundle true [0x21000005#32, 0x94295001#32] = .ok (⟨true, .jmp 5, some (.addi 9 10 ⟨1, none⟩)⟩, 2) ∧
    decodeBundle true [0x74295001#32, 0xC0000007#32] = .ok (⟨true, .addi 9 10 ⟨1, some 7⟩, none⟩, 2) := ⟨rfl, rfl⟩

/-- Context 0, or one of a pair, has fetched a word. -/
def latched (w : Code) (t : Option TwinInfo) : State := small fun c => { c with latch := some (.words [w]), twin := t }

/-- Its turn has come, and runs the word. -/
def turnRuns (s : State) (w : Code) : Bool :=
  let c := s.ctx 0
  decide (s.coming = .turn 0 0) && c.async.isEmpty && (s.stopped (s.at 0)).isNone && !s.leavesNow 0 && decide (c.latch = some (.words [w])) &&
    (c.twin.isNone || !s.trailerWaits c)

theorem witness_StepRunsTheDecodedInstruction :
    turnRuns (latched 0x502952C0 none) 0x502952C0 = true ∧
    (let s := { latched 0x502952C0 none with clusters := [(0, { Cluster.initial with halted := true })] }
     s.coming = .turn 0 0 ∧ (s.ctx 0).async = [] ∧ s.stopped (s.at 0) ≠ none) ∧
    (let s := queued [] fullSlots [(0, { Ctx.initial with st := .running, slot := some 0, pre := true, leaves := true }),
       (4, { Ctx.initial with st := .ready })]
     s.coming = .turn 0 0 ∧ (s.ctx 0).async = [] ∧ s.stopped (s.at 0) = none ∧ { s with cycle := 0, cur := 0 }.leavesNow 0 = true) ∧
    (let s := latched 0x502952C0 (some (twinInfo true 4096 none []))
     turnRuns s 0x502952C0 = true ∧ { s with cycle := 0, cur := 0, bun := ⟨false, .add false 9 10 11, none⟩, blen := 1 }.pairTurn = .run) ∧
    (∃ b n, decodeBundle true [0x502952C0#32] = .ok (b, n)) ∧
    (∃ f, decodeBundle true [0x80000000#32] = .error f) ∧ turnRuns (latched 0x80000000 none) 0x80000000 = true ∧
    (small id).wordHeld 0x80000000 = false ∧
    (let s := { small id with agenda := [⟨5, .fetch, ⟨0, 0, 0, .none⟩⟩], ctxs := [] }
     s.coming = .event ⟨5, .fetch, ⟨0, 0, 0, .none⟩⟩ []) :=
  ⟨by decide, by decide, by decide +kernel, by decide, ⟨_, _, rfl⟩, ⟨_, rfl⟩, by decide, by decide, by decide⟩

theorem witness_StepsKeepMemoryCanonical :
    ∃ s t, s.Inv ∧ step s = .next t :=
  ⟨small fun c => { c with latch := some (.words [0x50000000]) }, _, ⟨⟨rfl, rfl⟩, rfl, rfl⟩, rfl⟩

theorem witness_StepsGoOn :
    (∀ d ∈ State.reset.agenda, d.ev ≠ .arrayError) ∧
    (valued (small id) 0 0 0 (.array .hbm false)).arg.ext = .array .hbm false ∧
    (let s := valued (small id) 0 4 0 (.array .flit false)
     ((s.hopFails s.arg.who s.arg.what (s.arg.val == 1)).die s.arg.who).outputLost s.arg.what = false) := by decide

/-- A bundle in issue with the switch marker. -/
def marked (s : State) (i : Instr) : State := { s with bun := ⟨true, i, none⟩ }

theorem witness_MarkerWaitsAndRaises :
    (let i := Instr.div false 9 10 11
     let s := marked (small (withS [(11, 1)])) i
     isArith i = true ∧ s.ClearFor i ∧ s.bun.marker = true ∧ ∃ e, effectOf i (s.ctx s.cur) = .ok e ∧ (s.ctx s.cur).pend ++ pendOf e s.cycle ≠ []) ∧
    (let s := marked (small fun c => { c with rcause := BitVec.ofNat 8 Cause.objStore, tvecS := 0x8000 }) .nopc
     let c := s.ctx s.cur
     s.HeadReady .nopc Effect.none ∧ s.bun.marker = true ∧ c.pend ++ pendOf Effect.none s.cycle = [] ∧ c.rcause ≠ 0 ∧
      c.rcause.toNat ≠ Cause.engineError ∧ c.EntersNow c.rcause.toNat) :=
  ⟨⟨rfl, clear_of rfl, rfl, _, rfl, by decide⟩, ready_of rfl rfl, rfl, by decide, by decide, by decide, enters_of (by decide)⟩

theorem witness_UserModeKeepsProtection :
    ∃ t, Instr.nopc.hasWord = true ∧ (userState.ctx userState.cur).prv = false ∧ (userState.ctx userState.cur).pprv = false ∧
      exec .nopc userState = .next t := ⟨_, rfl, rfl, rfl, rfl⟩

end Sys2Proof.Tests
end

/-!
The vector family: what stands in each lane of a packed vector (R220), how a lone arithmetic word completes (R186), and VSEL (R227).
-/
namespace Sys2Proof.Machine

/-! Lanes (R220). -/

/-- A lane is a value of the lane's width. -/
theorem lane_lt (w : Nat) (v : Vec) (i : Nat) : lane w v i < 2 ^ w :=
  (v.extractLsb' (w * i) w).isLt

/-- A lane number of R220 names bits inside the 512 of a vector. -/
theorem lane_bits_le {w k : Nat} (hk : k < 512 / w) : w * k + w ≤ 512 :=
  calc w * k + w = w * (k + 1) := (Nat.mul_succ w k).symm
    _ ≤ w * (512 / w) := Nat.mul_le_mul_left w hk
    _ ≤ 512 := Nat.mul_div_le 512 w

/-- The digits of packed lanes, base 2^w, are the lanes, each cut to its width. -/
theorem packLanes_div_mod (w : Nat) (ls : List Nat) (k : Nat) :
    packLanes w ls / 2 ^ (w * k) % 2 ^ w = ls.getD k 0 % 2 ^ w := by
  induction ls generalizing k with
  | nil => simp [packLanes]
  | cons x xs ih =>
    cases k with
    | zero => simp [packLanes]
    | succ k =>
      have tail : (x % 2 ^ w + 2 ^ w * packLanes w xs) / 2 ^ w = packLanes w xs := by
        rw [Nat.add_mul_div_left _ _ (Nat.two_pow_pos w), Nat.div_eq_of_lt (Nat.mod_lt _ (Nat.two_pow_pos w)), Nat.zero_add]
      calc (x % 2 ^ w + 2 ^ w * packLanes w xs) / 2 ^ (w * (k + 1)) % 2 ^ w
          = packLanes w xs / 2 ^ (w * k) % 2 ^ w := by
            rw [Nat.mul_succ, Nat.add_comm (w * k), Nat.pow_add, ← Nat.div_div_eq_div_mul, tail]
        _ = (x :: xs).getD (k + 1) 0 % 2 ^ w := by rw [ih k, List.getD_cons_succ]

/-- Bits taken from inside a number's vector are the number's own: the vector's width cuts none of them. -/
theorem extractLsb'_ofNat_toNat {a w m : Nat} (h : a + w ≤ m) (n : Nat) :
    ((BitVec.ofNat m n).extractLsb' a w).toNat = n / 2 ^ a % 2 ^ w := by
  obtain ⟨r, rfl⟩ := Nat.exists_eq_add_of_le h
  rw [BitVec.extractLsb'_toNat, BitVec.toNat_ofNat, Nat.shiftRight_eq_div_pow, Nat.pow_add, Nat.pow_add, Nat.mul_assoc,
    Nat.mod_mul_right_div_self, Nat.mod_mul_right_mod]

/-- A lane of a number as a vector is the number's digit, base 2^w. -/
theorem lane_ofNat {w k : Nat} (hk : k < 512 / w) (n : Nat) : lane w (BitVec.ofNat 512 n) k = n / 2 ^ (w * k) % 2 ^ w :=
  extractLsb'_ofNat_toNat (lane_bits_le hk) n

/-- Each lane of a vector built from a function holds the function's value, cut to the lane's width. -/
@[simp] theorem lane_lanesV {w k : Nat} (f : Nat → Nat) (hk : k < 512 / w) : lane w (lanesV w (512 / w) f) k = f k % 2 ^ w := by
  rw [lanesV, lane_ofNat hk, packLanes_div_mod]
  simp [List.getD, hk]

/-! Lone words. -/

/-- A lone arithmetic word that cannot trap completes with its effect once none of its registers is pending. -/
theorem lone_completes {s : State} {i : Instr} (f : Ctx → Effect) (hc : s.ClearFor i) (hu : s.Unmarked) :
    ∃ t, lone s i f = .next t ∧ Completed s t (f (s.ctx s.cur)) s.nextPc :=
  ⟨_, congrArg Host.Outcome.next (s.issueA_ok i _ hc), s.retire_completed _ hu⟩

/-! VSEL (R227). -/

/-- The vector that VSEL leaves: of va where the mask's bit is 1, of vb elsewhere. -/
def selectedLanes (o : VArgs) (c : Ctx) : Vec :=
  lanesV o.ty.width o.ty.lanes fun k =>
    if (c.getM o.m).getLsbD k then lane o.ty.width (c.getV o.va) k else lane o.ty.width (c.getV o.vb) k

/-- VSEL's effect is the one write of the selected lanes, of turn class. -/
theorem effVsel_eq (o : VArgs) (c : Ctx) : effVsel o c = timed 0 [setV o.vd (selectedLanes o c)] := rfl

/-- Every lane of VSEL's vector is the one that the mask selects. -/
theorem lane_selectedLanes (o : VArgs) (c : Ctx) {k : Nat} (hk : k < 512 / o.ty.width) :
    lane o.ty.width (selectedLanes o c) k =
      if (c.getM o.m).getLsbD k then lane o.ty.width (c.getV o.va) k else lane o.ty.width (c.getV o.vb) k := by
  rw [selectedLanes, LaneType.lanes, lane_lanesV _ hk, Nat.mod_eq_of_lt]
  split <;> exact lane_lt ..

/-- A lone VSEL reads its two sources and its mask. -/
theorem bundleReads_vsel (o : VArgs) : bundleReads (.vsel o) none = [.v o.va, .v o.vb, .m o.m] := rfl

/-- Settles O3: VSEL completes with the selected lanes, and its destination is not among the registers it reads. -/
theorem selectTakesEveryLane : Obligations.SelectTakesEveryLane := by
  intro s o c
  refine ⟨fun hclear hmark => ?_, fun ha hb => ?_⟩
  · obtain ⟨t, ht, hdone⟩ := lone_completes (effVsel o) hclear hmark
    rw [effVsel_eq] at hdone
    exact ⟨t, selectedLanes o c, ht, hdone, fun k hk => lane_selectedLanes o c hk⟩
  · rw [bundleReads_vsel]
    simp [ha, hb]

end Sys2Proof.Machine

/-!
Trap entry: what the operations that take a cause leave of the context that takes it (R366, R367, R381).
-/
namespace Sys2Proof.Machine

/-! Which handler takes a cause (R366). -/

theorem Ctx.toUser_iff (c : Ctx) (cause : Nat) : c.toUser cause = true ↔
    c.sh = false ∧ c.uh = false ∧ c.prv = false ∧ c.tdeleg.getLsbD cause = true ∧ c.tvecU ≠ 0 := by
  simp [Ctx.toUser, and_assoc]

theorem Ctx.toUser_eq_false_iff (c : Ctx) (cause : Nat) : c.toUser cause = false ↔
    c.sh = true ∨ c.uh = true ∨ c.prv = true ∨ c.tdeleg.getLsbD cause = false ∨ c.tvecU = 0 := by
  simp only [Ctx.toUser, Bool.and_eq_false_iff, Bool.not_eq_false', bne_eq_false_iff_eq, or_assoc]

theorem Ctx.noHandler_iff (c : Ctx) (cause : Nat) :
    c.noHandler cause = true ↔ c.sh = true ∨ c.toUser cause = false ∧ c.tvecS = 0 := by
  simp [Ctx.noHandler]

theorem Ctx.escalates_iff (c : Ctx) : c.escalates = true ↔ c.uh = true ∧ c.sh = false := by
  simp [Ctx.escalates]

theorem Ctx.escalates_eq_false (c : Ctx) (huh : c.uh = false) : c.escalates = false := by
  simp [Ctx.escalates, huh]

/-- Outside the supervisor handler a cause has a handler when the user handler takes it or the supervisor handler has a vector. -/
theorem Ctx.noHandler_eq_false (c : Ctx) {cause : Nat} (hsh : c.sh = false) (h : c.toUser cause = true ∨ c.tvecS ≠ 0) :
    c.noHandler cause = false := by
  rw [← Bool.not_eq_true, c.noHandler_iff]
  rintro (h1 | ⟨hto, hvec⟩)
  · simp [hsh] at h1
  · exact h.elim (by simp [hto]) (· hvec)

/-- The user handler entered (R367). -/
theorem Ctx.enterTrap_user (c : Ctx) (r : TrapReq) (now : Nat) (h : c.toUser r.cause = true) :
    let d := c.enterTrap r now
    d.kill = c.kill ∧ d.st = .running ∧ d.prv = c.prv ∧ d.pc = c.tvecU.setWidth 64 + word (64 * r.cause) ∧ d.uh = true ∧
      d.sh = c.sh := by
  simp [Ctx.enterTrap, h]

/-- The supervisor handler entered (R367). -/
theorem Ctx.enterTrap_super (c : Ctx) (r : TrapReq) (now : Nat) (h : c.toUser r.cause = false) :
    let d := c.enterTrap r now
    d.kill = c.kill ∧ d.st = .running ∧ d.prv = true ∧ d.pc = c.tvecS.setWidth 64 + word (64 * r.cause) ∧ d.sh = true ∧
      d.tcause = tcauseOf r c.escalates false := by
  simp [Ctx.enterTrap, h]

/-- TCAUSE of an escalated trap has its ESC bit set (R369). -/
theorem tcauseOf_escalated {r : TrapReq} (hr : r.cause < 2 ^ 8) (dlg : Bool) : (tcauseOf r true dlg).getLsbD 9 = true := by
  have hlate : (if r.late then 256 else 0) ≤ 256 := by split <;> omega
  have hdlg : (if dlg then 1024 else 0) = 1024 * dlg.toNat := by cases dlg <;> rfl
  rw [tcauseOf, if_pos rfl, hdlg, BitVec.getLsbD_ofNat, Nat.testBit_eq_decide_div_mod_eq]
  refine Bool.and_eq_true_iff.2 ⟨rfl, decide_eq_true ?_⟩
  omega

/-! What the operations on the state leave of a context. -/

@[simp] theorem State.lookReady_ctxs (s : State) (core : Nat) : (s.lookReady core).ctxs = s.ctxs := by
  unfold State.lookReady State.kick
  split
  · rfl
  · rw [State.postSoon_agenda]

@[simp] theorem State.ctx_lookReady (s : State) (core g : Nat) : (s.lookReady core).ctx g = s.ctx g :=
  State.ctx_of_ctxs (s.lookReady_ctxs core) g

@[simp] theorem State.ctx_park (s : State) (g : Nat) (w : Wait) :
    (s.park g w).ctx g = { s.ctx g with st := .parked, wait := w, parkedAt := s.cycle } := by
  unfold State.park
  rw [State.ctx_lookReady]
  split <;> simp

@[simp] theorem State.ctx_postFetch (s : State) (g e h : Nat) : (s.postFetch g e).ctx h = s.ctx h := by
  unfold State.postFetch
  split <;> rfl

@[simp] theorem State.ctx_enterTrap (s : State) (g : Nat) (r : TrapReq) :
    (s.enterTrap g r).ctx g = (s.ctx g).enterTrap r s.cycle := by
  simp [State.enterTrap]

@[simp] theorem State.modShadow_ctxs (s : State) (g : Nat) (f : Shadow → Shadow) : (s.modShadow g f).ctxs = s.ctxs := by
  unfold State.modShadow
  split <;> rfl

/-- The kill sequence of a live context of no pair begins with the cause, and PC and privilege stand (R381). -/
theorem State.ctx_startKill_single (s : State) {g : Nat} (cause : Nat) (tval pc : Word) (killer : Nat)
    (hkill : (s.ctx g).kill = none) (hlive : (s.ctx g).st ≠ .free) (htwin : (s.ctx g).twin = none) :
    let d := (s.startKill g cause tval pc killer).ctx g
    (∃ k, d.kill = some k ∧ k.cause = cause ∧ k.tval = tval) ∧ d.pc = (s.ctx g).pc ∧ d.prv = (s.ctx g).prv := by
  simp [State.startKill, State.dropHeld, State.startKillOne, htwin, hkill, hlive]

/-! Taking a cause. -/

/-- A context at a trap: what it had fetched, parked or held is given up (R366). -/
def Ctx.atTrap (c : Ctx) : Ctx :=
  { c with latch := none, fills := [], marker := false, transfer := none, held := none
           undo := none, ufetch := [], nofetch := [], heldTail := none, resuming := false, wait := .none }

/-- A context that waits for the record of its escalated trap (R367). -/
def Ctx.logging (c : Ctx) (r : TrapReq) (now : Nat) : Ctx :=
  { c with trap := some r, st := .parked, wait := .escalation, parkedAt := now }

theorem Ctx.checkpointed_single {c : Ctx} (h : c.twin = none) : c.checkpointed = c := by
  simp [Ctx.checkpointed, h]

/-- What a precise cause does before it is taken: the other context of the pair is told, and the comparator holds nothing any
more (R418). -/
def State.announced (s : State) (g : Nat) (t : Trap) : State :=
  (s.passTwin g (.cause t.1 t.2 false)).modCtx g fun c =>
    { c with twin := c.twin.map fun x => { x with released := false, holding := false } }

theorem State.raiseFrom_eq (s : State) (g : Nat) (t : Trap) (at_ : Nat) :
    s.raiseFrom g t at_ = (s.announced g t).beginTrap g ⟨t.1, t.2, ((s.announced g t).ctx g).pc, false, at_⟩ := rfl

@[simp] theorem State.announced_cycle (s : State) (g : Nat) (t : Trap) : (s.announced g t).cycle = s.cycle := rfl

/-- A context of no pair has nobody to tell: it stands as it did. -/
theorem State.ctx_announced_single {s : State} {g : Nat} (t : Trap) (h : (s.ctx g).twin = none) :
    (s.announced g t).ctx g = s.ctx g := by
  have hkeep : { s.ctx g with twin := none } = s.ctx g := by rw [← h]
  simp [State.announced, State.passTwin, h, hkeep]

/-- A cause that no handler may take begins the kill sequence (R366). -/
theorem State.beginTrap_of_noHandler {s : State} {g : Nat} {r : TrapReq} (h : (s.ctx g).noHandler r.cause = true)
    (htwin : (s.ctx g).twin = none) : s.beginTrap g r = s.startKill g r.cause r.tval r.pc 0xFFFFFFFF := by
  simp [State.beginTrap, Ctx.checkpointed_single htwin, h]

/-- A cause that a handler may take is taken at once by a running context of which nothing is pending (R367). -/
theorem State.beginTrap_of_handler {s : State} {g : Nat} {r : TrapReq} (hmild : Cause.fatal r.cause = false)
    (h : (s.ctx g).noHandler r.cause = false) (htwin : (s.ctx g).twin = none) (hrun : (s.ctx g).st = .running)
    (hpend : (s.ctx g).pend = []) : s.beginTrap g r = (s.setCtx g (s.ctx g).atTrap).continueTrap g r := by
  simp [State.beginTrap, Ctx.checkpointed_single htwin, hmild, h, hrun, hpend, Ctx.atTrap]

/-- An escalated trap parks until its record is in the log (R367). -/
theorem State.ctx_continueTrap_of_escalates {s : State} {g : Nat} (r : TrapReq) (h : (s.ctx g).escalates = true) :
    (s.continueTrap g r).ctx g = (s.ctx g).logging r s.cycle := by
  simp [State.continueTrap, h, Ctx.logging]

/-- A trap that does not escalate enters its handler (R367). -/
theorem State.ctx_continueTrap_of_not_escalates {s : State} {g : Nat} (r : TrapReq) (h : (s.ctx g).escalates = false) :
    (s.continueTrap g r).ctx g = (s.ctx g).enterTrap r s.cycle := by
  simp [State.continueTrap, h]

/-- Once the record is in the log, the trap enters the handler that it waits for (R367). -/
theorem exec_escalationLogged_enters {s : State} {g : Nat} {r : TrapReq} (hwho : s.arg.who = g) (htrap : (s.ctx g).trap = some r)
    (hwait : (s.ctx g).wait = .escalation) :
    ∃ u : State, exec .escalationLogged s = .next u ∧ u.ctx g = (s.ctx g).enterTrap r s.cycle := by
  have hexec : exec .escalationLogged s = execEscalationLogged s := rfl
  simp only [hexec, execEscalationLogged, hwho, htrap, hwait, if_true]
  refine ⟨_, rfl, ?_⟩
  rw [State.ctx_lookReady, State.ctx_enterTrap, State.modPart_cycle, State.ctx_of_ctxs (State.modPart_ctxs ..)]

/-! A precise cause of a running context of no pair, of which nothing is pending. -/

/-- The context that may take a cause which is not fatal as it stands: it runs, is of no pair, is not being killed, and no register of it
is pending. -/
structure Ctx.MayTake (c : Ctx) (cause : Nat) : Prop where
  mild   : Cause.fatal cause = false
  alive  : c.kill = none
  runs   : c.st = .running
  single : c.twin = none
  clear  : c.pend = []

/-- The trap that a precise cause of the bundle in issue requests. -/
def State.request (s : State) (cause : Nat) (x : Word) : TrapReq := ⟨cause, x, (s.ctx s.cur).pc, false, s.cycle⟩

section
variable {s : State} {cause : Nat} (x : Word) (h : (s.ctx s.cur).MayTake cause)
include h

/-- The cause of the bundle in issue is taken as the trap that it requests. -/
theorem State.raise_eq : s.raise (cause, x) = (s.announced s.cur (cause, x)).beginTrap s.cur (s.request cause x) := by
  rw [State.raise, State.raiseAt, State.raiseFrom_eq, State.ctx_announced_single _ h.single]
  rfl

/-- With no handler, the kill sequence begins with the cause (R366). -/
theorem State.raise_kills (hno : (s.ctx s.cur).noHandler cause = true) :
    let d := (s.raise (cause, x)).ctx s.cur
    (∃ k, d.kill = some k ∧ k.cause = cause ∧ k.tval = x) ∧ d.pc = (s.ctx s.cur).pc ∧ d.prv = (s.ctx s.cur).prv := by
  have hu := State.ctx_announced_single (cause, x) h.single
  have hkill := (s.announced s.cur (cause, x)).ctx_startKill_single cause x (s.ctx s.cur).pc 0xFFFFFFFF
    (g := s.cur) (by rw [hu, h.alive]) (by simp [hu, h.runs]) (by rw [hu, h.single])
  rw [State.raise_eq x h, State.beginTrap_of_noHandler (by rw [hu]; exact hno) (by rw [hu, h.single])]
  rwa [hu] at hkill

/-- With a handler, the trap goes on from the context that has given up what it had in hand. -/
theorem State.raise_eq_continueTrap (hhas : (s.ctx s.cur).noHandler cause = false) :
    s.raise (cause, x) =
      ((s.announced s.cur (cause, x)).setCtx s.cur (s.ctx s.cur).atTrap).continueTrap s.cur (s.request cause x) := by
  have hu := State.ctx_announced_single (cause, x) h.single
  rw [State.raise_eq x h, State.beginTrap_of_handler h.mild, hu]
  all_goals rw [hu]
  · exact hhas
  · exact h.single
  · exact h.runs
  · exact h.clear

/-- A cause inside a user handler parks the context for the record of its escalation (R366, R367). -/
theorem State.ctx_raise_of_escalates (hhas : (s.ctx s.cur).noHandler cause = false) (hesc : (s.ctx s.cur).escalates = true) :
    (s.raise (cause, x)).ctx s.cur = (s.ctx s.cur).atTrap.logging (s.request cause x) s.cycle := by
  rw [State.raise_eq_continueTrap x h hhas, State.ctx_continueTrap_of_escalates _ (by rw [State.ctx_setCtx]; exact hesc)]
  simp

/-- Once the record of an escalated cause is in the log, the context enters the handler that it waits for (R367). -/
theorem State.raise_logged (hhas : (s.ctx s.cur).noHandler cause = false) (hesc : (s.ctx s.cur).escalates = true)
    {arg : EvArg} (harg : arg.who = s.cur) :
    ∃ (u : State) (now : Nat), exec .escalationLogged { s.raise (cause, x) with arg := arg } = .next u ∧
      u.ctx s.cur = ((s.ctx s.cur).atTrap.logging (s.request cause x) s.cycle).enterTrap (s.request cause x) now := by
  have hd := State.ctx_raise_of_escalates x h hhas hesc
  obtain ⟨u, hu, hctx⟩ := exec_escalationLogged_enters (s := { s.raise (cause, x) with arg := arg }) harg
    (congrArg Ctx.trap hd) (congrArg Ctx.wait hd)
  exact ⟨u, _, hu, hctx.trans (congrArg (Ctx.enterTrap · _ _) hd)⟩

/-- A cause outside both handlers enters one of them (R366, R367). -/
theorem State.ctx_raise_of_not_escalates (hhas : (s.ctx s.cur).noHandler cause = false)
    (hesc : (s.ctx s.cur).escalates = false) :
    (s.raise (cause, x)).ctx s.cur = (s.ctx s.cur).atTrap.enterTrap (s.request cause x) s.cycle := by
  rw [State.raise_eq_continueTrap x h hhas, State.ctx_continueTrap_of_not_escalates _ (by rw [State.ctx_setCtx]; exact hesc)]
  simp

end

/-- Settles O13: R366's table, row by row, each of its places by the operation that leads there. -/
theorem causesGoToOnePlace : Obligations.CausesGoToOnePlace := by
  intro s cause x c d killed enters hcause hmild halive hruns hsingle hclear
  have h : c.MayTake cause := ⟨hmild, halive, hruns, hsingle, hclear⟩
  refine ⟨fun hsh => ?inSuper, fun hsh huh hvec => ?inUser, fun hsh huh => ⟨fun huser => ?delegated, fun huser hvec => ?plain⟩,
    fun hsh hvec hnot => ?noVector⟩
  case inSuper => exact State.raise_kills x h ((c.noHandler_iff cause).2 (.inl hsh))
  case inUser =>
    have hto : c.toUser cause = false := (c.toUser_eq_false_iff cause).2 (.inr (.inl huh))
    have hesc : c.escalates = true := c.escalates_iff.2 ⟨huh, hsh⟩
    have hhas : c.noHandler cause = false := c.noHandler_eq_false hsh (.inr hvec)
    have hd : d = c.atTrap.logging (s.request cause x) s.cycle := State.ctx_raise_of_escalates x h hhas hesc
    refine ⟨congrArg Ctx.wait hd, (congrArg Ctx.kill hd).trans halive, fun arg harg => ?_⟩
    obtain ⟨u, now, hu, hctx⟩ := State.raise_logged x h hhas hesc harg
    obtain ⟨hkill, hst, hprv, hpc, hsh', htcause⟩ := Ctx.enterTrap_super _ (s.request cause x) now hto
    have hbit : (tcauseOf (s.request cause x) c.escalates false).getLsbD 9 = true := by
      rw [hesc]
      exact tcauseOf_escalated hcause false
    exact ⟨u, hu, hctx ▸ ⟨⟨hkill.trans halive, hst, hprv, hpc⟩, hsh', htcause ▸ hbit⟩⟩
  case delegated =>
    obtain ⟨hprv, hdeleg, hvec⟩ := huser
    have hto : c.toUser cause = true := (c.toUser_iff cause).2 ⟨hsh, huh, hprv, hdeleg, hvec⟩
    have hd : d = c.atTrap.enterTrap (s.request cause x) s.cycle :=
      State.ctx_raise_of_not_escalates x h (c.noHandler_eq_false hsh (.inl hto)) (c.escalates_eq_false huh)
    obtain ⟨hkill, hst, hprv', hpc, huh', hsh'⟩ := c.atTrap.enterTrap_user (s.request cause x) s.cycle hto
    exact hd ▸ ⟨⟨hkill.trans halive, hst, hprv'.trans hprv, hpc⟩, huh', hsh'.trans hsh⟩
  case plain =>
    have hto : c.toUser cause = false := by
      rw [← Bool.not_eq_true, c.toUser_iff]
      exact fun ⟨_, _, hu⟩ => huser hu
    have hd : d = c.atTrap.enterTrap (s.request cause x) s.cycle :=
      State.ctx_raise_of_not_escalates x h (c.noHandler_eq_false hsh (.inr hvec)) (c.escalates_eq_false huh)
    obtain ⟨hkill, hst, hprv, hpc, hsh', -⟩ := c.atTrap.enterTrap_super (s.request cause x) s.cycle hto
    exact hd ▸ ⟨⟨hkill.trans halive, hst, hprv, hpc⟩, hsh'⟩
  case noVector =>
    have hto : c.toUser cause = false := (c.toUser_eq_false_iff cause).2 (.inr hnot)
    exact State.raise_kills x h ((c.noHandler_iff cause).2 (.inr ⟨hto, hvec⟩))

end Sys2Proof.Machine
